-- ==== Sys2Proof/Word.lean ====
section
/-! DEFINITION. The word types of the block (00_scope R10): a data byte, a bus address and an operation word. -/

namespace Sys2Proof

/-- A data byte, 0..255 (00_scope R10, 20_memory R65). -/
abbrev Byte := BitVec 8

/-- A 16-bit bus address (10_state R64). -/
abbrev Addr := BitVec 16

/-- A 32-bit operation word (30_encoding R80). -/
abbrev Word := BitVec 32

end Sys2Proof
end

