-- ==== Sys2Proof/Syntax.lean ====
section
/-! DEFINITION. The block's operations as syntax (00_scope R3, 30_encoding R90): one constructor for each of the
56 rows of spec/opcode_table.json, in the table's order. -/

namespace Sys2Proof

/-- One operation of the host on the block. A READ carries no data, STEP and SAMPLE no operand (30_encoding R80). -/
inductive Instr where
  /-- R110: write channel-1 sweep, 0xFF10. -/
  | writeNr10 (d : Byte)
  /-- R119: read channel-1 sweep, 0xFF10. -/
  | readNr10
  /-- R111: write channel-1 duty and length, 0xFF11. -/
  | writeNr11 (d : Byte)
  /-- R120: read channel-1 duty and length, 0xFF11. -/
  | readNr11
  /-- R112: write channel-1 envelope, 0xFF12. -/
  | writeNr12 (d : Byte)
  /-- R121: read channel-1 envelope, 0xFF12. -/
  | readNr12
  /-- R113: write channel-1 frequency low, 0xFF13. -/
  | writeNr13 (d : Byte)
  /-- R122: read channel-1 frequency low, 0xFF13. -/
  | readNr13
  /-- R114: write channel-1 frequency high, length enable, trigger, 0xFF14. -/
  | writeNr14 (d : Byte)
  /-- R123: read channel-1 frequency high, length enable, trigger, 0xFF14. -/
  | readNr14
  /-- R115: write channel-2 duty and length, 0xFF16. -/
  | writeNr21 (d : Byte)
  /-- R124: read channel-2 duty and length, 0xFF16. -/
  | readNr21
  /-- R116: write channel-2 envelope, 0xFF17. -/
  | writeNr22 (d : Byte)
  /-- R125: read channel-2 envelope, 0xFF17. -/
  | readNr22
  /-- R117: write channel-2 frequency low, 0xFF18. -/
  | writeNr23 (d : Byte)
  /-- R126: read channel-2 frequency low, 0xFF18. -/
  | readNr23
  /-- R118: write channel-2 frequency high, length enable, trigger, 0xFF19. -/
  | writeNr24 (d : Byte)
  /-- R127: read channel-2 frequency high, length enable, trigger, 0xFF19. -/
  | readNr24
  /-- R170: write channel-3 DAC power, 0xFF1A. -/
  | writeNr30 (d : Byte)
  /-- R176: read channel-3 DAC power, 0xFF1A. -/
  | readNr30
  /-- R171: write channel-3 length, 0xFF1B. -/
  | writeNr31 (d : Byte)
  /-- R177: read channel-3 length, 0xFF1B. -/
  | readNr31
  /-- R172: write channel-3 volume code, 0xFF1C. -/
  | writeNr32 (d : Byte)
  /-- R178: read channel-3 volume code, 0xFF1C. -/
  | readNr32
  /-- R173: write channel-3 frequency low, 0xFF1D. -/
  | writeNr33 (d : Byte)
  /-- R179: read channel-3 frequency low, 0xFF1D. -/
  | readNr33
  /-- R174: write channel-3 frequency high, length enable, trigger, 0xFF1E. -/
  | writeNr34 (d : Byte)
  /-- R180: read channel-3 frequency high, length enable, trigger, 0xFF1E. -/
  | readNr34
  /-- R200: write channel-4 length, 0xFF20. -/
  | writeNr41 (d : Byte)
  /-- R205: read channel-4 length, 0xFF20. -/
  | readNr41
  /-- R201: write channel-4 envelope, 0xFF21. -/
  | writeNr42 (d : Byte)
  /-- R206: read channel-4 envelope, 0xFF21. -/
  | readNr42
  /-- R202: write channel-4 polynomial, 0xFF22. -/
  | writeNr43 (d : Byte)
  /-- R207: read channel-4 polynomial, 0xFF22. -/
  | readNr43
  /-- R203: write channel-4 control and trigger, 0xFF23. -/
  | writeNr44 (d : Byte)
  /-- R208: read channel-4 control and trigger, 0xFF23. -/
  | readNr44
  /-- R250: write master volume, 0xFF24. -/
  | writeNr50 (d : Byte)
  /-- R251: read master volume, 0xFF24. -/
  | readNr50
  /-- R252: write stereo routing, 0xFF25. -/
  | writeNr51 (d : Byte)
  /-- R253: read stereo routing, 0xFF25. -/
  | readNr51
  /-- R254: write master power and status, 0xFF26. -/
  | writeNr52 (d : Byte)
  /-- R256: read master power and status, 0xFF26. -/
  | readNr52
  /-- R175: write wave-RAM byte `i`, 0xFF30 + i. -/
  | writeWave (i : BitVec 4) (d : Byte)
  /-- R184: read wave-RAM byte `i`, 0xFF30 + i. -/
  | readWave (i : BitVec 4)
  /-- R262: write the unused address 0xFF15. -/
  | writeUnusedFf15 (d : Byte)
  /-- R263: read the unused address 0xFF15. -/
  | readUnusedFf15
  /-- R262: write the unused address 0xFF1F. -/
  | writeUnusedFf1f (d : Byte)
  /-- R263: read the unused address 0xFF1F. -/
  | readUnusedFf1f
  /-- R262: write the unused address 0xFF27. -/
  | writeUnusedFf27 (d : Byte)
  /-- R263: read the unused address 0xFF27. -/
  | readUnusedFf27
  /-- R262: write the unused address 0xFF28 + j. -/
  | writeUnusedFf28To2f (j : BitVec 3) (d : Byte)
  /-- R263: read the unused address 0xFF28 + j. -/
  | readUnusedFf28To2f (j : BitVec 3)
  /-- R281: write an address outside 0xFF10-0xFF3F. -/
  | writeOutOfWindow (a : Addr) (d : Byte)
  /-- R281: read an address outside 0xFF10-0xFF3F. -/
  | readOutOfWindow (a : Addr)
  /-- R233: advance the block by one clock cycle. -/
  | step
  /-- R259: read the stereo output. -/
  | sample
  deriving DecidableEq, Repr

end Sys2Proof
end

