-- ==== Sys2Proof/WellFormed.lean ====
section
/-! DEFINITION. Which operations are well formed: the operand types carry every width, so the only check left is the
address of the two out-of-window rows, "which match only when no other READ or WRITE row matches" (30_encoding R90). -/

namespace Sys2Proof

/-- The window 0xFF10-0xFF3F the block decodes (10_state R64, 20_memory R72). -/
def inWindow (a : Addr) : Bool := decide (0xFF10 ≤ a.toNat) && decide (a.toNat ≤ 0xFF3F)

/-- The well-formedness check of an operation (30_encoding R84, R90). -/
def Instr.wf : Instr → Bool
  | .writeNr10 _ => true
  | .readNr10 => true
  | .writeNr11 _ => true
  | .readNr11 => true
  | .writeNr12 _ => true
  | .readNr12 => true
  | .writeNr13 _ => true
  | .readNr13 => true
  | .writeNr14 _ => true
  | .readNr14 => true
  | .writeNr21 _ => true
  | .readNr21 => true
  | .writeNr22 _ => true
  | .readNr22 => true
  | .writeNr23 _ => true
  | .readNr23 => true
  | .writeNr24 _ => true
  | .readNr24 => true
  | .writeNr30 _ => true
  | .readNr30 => true
  | .writeNr31 _ => true
  | .readNr31 => true
  | .writeNr32 _ => true
  | .readNr32 => true
  | .writeNr33 _ => true
  | .readNr33 => true
  | .writeNr34 _ => true
  | .readNr34 => true
  | .writeNr41 _ => true
  | .readNr41 => true
  | .writeNr42 _ => true
  | .readNr42 => true
  | .writeNr43 _ => true
  | .readNr43 => true
  | .writeNr44 _ => true
  | .readNr44 => true
  | .writeNr50 _ => true
  | .readNr50 => true
  | .writeNr51 _ => true
  | .readNr51 => true
  | .writeNr52 _ => true
  | .readNr52 => true
  | .writeWave _ _ => true
  | .readWave _ => true
  | .writeUnusedFf15 _ => true
  | .readUnusedFf15 => true
  | .writeUnusedFf1f _ => true
  | .readUnusedFf1f => true
  | .writeUnusedFf27 _ => true
  | .readUnusedFf27 => true
  | .writeUnusedFf28To2f _ _ => true
  | .readUnusedFf28To2f _ => true
  | .writeOutOfWindow a _ => !inWindow a
  | .readOutOfWindow a => !inWindow a
  | .step => true
  | .sample => true

/-- `Instr.wf` as a proposition. -/
abbrev Instr.WellFormed (i : Instr) : Prop := i.wf = true

end Sys2Proof
end

