-- ==== Sys2Proof/Decode.lean ====
section
/-! DEFINITION. The operation word (30_encoding R80): its fields, the decoder, total on every 32-bit word (R84), and the
encoder, written from the same table. -/

namespace Sys2Proof

/-- The reasons the decoder calls a word `invalid` (30_encoding R84(a)). -/
inductive DecodeError where
  /-- The reserved field `z`, bits 29:24, is not 0. -/
  | reservedNonzero
  /-- A READ word with a data byte that is not 0. -/
  | readWithData
  /-- A STEP word with an address or a data byte. -/
  | stepWithOperand
  /-- A SAMPLE word with an address or a data byte. -/
  | sampleWithOperand
  deriving DecidableEq, Repr

/-- Bits 31:30, `op` (R80). -/
def opField (w : Word) : BitVec 2 := w.extractLsb' 30 2
/-- Bits 29:24, `z`, reserved (R80). -/
def zField (w : Word) : BitVec 6 := w.extractLsb' 24 6
/-- Bits 23:8, `addr` (R80). -/
def addrField (w : Word) : Addr := w.extractLsb' 8 16
/-- Bits 7:0, `data` (R80). -/
def dataField (w : Word) : Byte := w.extractLsb' 0 8

/-- The word of the four fields, `op` in the high bits (R80). -/
def mkWord (op : BitVec 2) (z : BitVec 6) (a : Addr) (d : Byte) : Word := op ++ z ++ a ++ d

/-- The READ row of address `a` (30_encoding R90; opcode_table.json). The out-of-window row matches last,
only when no other row does (R84(b)). -/
def readAt (a : Addr) : Instr :=
  if a = 0xFF10#16 then .readNr10
  else if a = 0xFF11#16 then .readNr11
  else if a = 0xFF12#16 then .readNr12
  else if a = 0xFF13#16 then .readNr13
  else if a = 0xFF14#16 then .readNr14
  else if a = 0xFF15#16 then .readUnusedFf15
  else if a = 0xFF16#16 then .readNr21
  else if a = 0xFF17#16 then .readNr22
  else if a = 0xFF18#16 then .readNr23
  else if a = 0xFF19#16 then .readNr24
  else if a = 0xFF1A#16 then .readNr30
  else if a = 0xFF1B#16 then .readNr31
  else if a = 0xFF1C#16 then .readNr32
  else if a = 0xFF1D#16 then .readNr33
  else if a = 0xFF1E#16 then .readNr34
  else if a = 0xFF1F#16 then .readUnusedFf1f
  else if a = 0xFF20#16 then .readNr41
  else if a = 0xFF21#16 then .readNr42
  else if a = 0xFF22#16 then .readNr43
  else if a = 0xFF23#16 then .readNr44
  else if a = 0xFF24#16 then .readNr50
  else if a = 0xFF25#16 then .readNr51
  else if a = 0xFF26#16 then .readNr52
  else if a = 0xFF27#16 then .readUnusedFf27
  else if a.extractLsb' 3 13 = 0x1FE5#13 then .readUnusedFf28To2f (a.extractLsb' 0 3)
  else if a.extractLsb' 4 12 = 0xFF3#12 then .readWave (a.extractLsb' 0 4)
  else .readOutOfWindow a

/-- The WRITE row of address `a` (30_encoding R90; opcode_table.json). The out-of-window row matches last,
only when no other row does (R84(b)). -/
def writeAt (a : Addr) (d : Byte) : Instr :=
  if a = 0xFF10#16 then .writeNr10 d
  else if a = 0xFF11#16 then .writeNr11 d
  else if a = 0xFF12#16 then .writeNr12 d
  else if a = 0xFF13#16 then .writeNr13 d
  else if a = 0xFF14#16 then .writeNr14 d
  else if a = 0xFF15#16 then .writeUnusedFf15 d
  else if a = 0xFF16#16 then .writeNr21 d
  else if a = 0xFF17#16 then .writeNr22 d
  else if a = 0xFF18#16 then .writeNr23 d
  else if a = 0xFF19#16 then .writeNr24 d
  else if a = 0xFF1A#16 then .writeNr30 d
  else if a = 0xFF1B#16 then .writeNr31 d
  else if a = 0xFF1C#16 then .writeNr32 d
  else if a = 0xFF1D#16 then .writeNr33 d
  else if a = 0xFF1E#16 then .writeNr34 d
  else if a = 0xFF1F#16 then .writeUnusedFf1f d
  else if a = 0xFF20#16 then .writeNr41 d
  else if a = 0xFF21#16 then .writeNr42 d
  else if a = 0xFF22#16 then .writeNr43 d
  else if a = 0xFF23#16 then .writeNr44 d
  else if a = 0xFF24#16 then .writeNr50 d
  else if a = 0xFF25#16 then .writeNr51 d
  else if a = 0xFF26#16 then .writeNr52 d
  else if a = 0xFF27#16 then .writeUnusedFf27 d
  else if a.extractLsb' 3 13 = 0x1FE5#13 then .writeUnusedFf28To2f (a.extractLsb' 0 3) d
  else if a.extractLsb' 4 12 = 0xFF3#12 then .writeWave (a.extractLsb' 0 4) d
  else .writeOutOfWindow a d

/-- The decoder (R84): an operation, or the reason the word is invalid. -/
def decode (w : Word) : Except DecodeError Instr :=
  if zField w ≠ 0#6 then .error .reservedNonzero
  else if opField w = 0b00#2 then
    if dataField w ≠ 0#8 then .error .readWithData else .ok (readAt (addrField w))
  else if opField w = 0b01#2 then .ok (writeAt (addrField w) (dataField w))
  else if opField w = 0b10#2 then
    if addrField w ≠ 0#16 ∨ dataField w ≠ 0#8 then .error .stepWithOperand else .ok .step
  else if addrField w ≠ 0#16 ∨ dataField w ≠ 0#8 then .error .sampleWithOperand else .ok .sample

/-- The bus address of a READ or WRITE; STEP and SAMPLE have none (R80). -/
def Instr.addr? : Instr → Option Addr
  | .writeNr10 _ => some 0xFF10#16
  | .readNr10 => some 0xFF10#16
  | .writeNr11 _ => some 0xFF11#16
  | .readNr11 => some 0xFF11#16
  | .writeNr12 _ => some 0xFF12#16
  | .readNr12 => some 0xFF12#16
  | .writeNr13 _ => some 0xFF13#16
  | .readNr13 => some 0xFF13#16
  | .writeNr14 _ => some 0xFF14#16
  | .readNr14 => some 0xFF14#16
  | .writeNr21 _ => some 0xFF16#16
  | .readNr21 => some 0xFF16#16
  | .writeNr22 _ => some 0xFF17#16
  | .readNr22 => some 0xFF17#16
  | .writeNr23 _ => some 0xFF18#16
  | .readNr23 => some 0xFF18#16
  | .writeNr24 _ => some 0xFF19#16
  | .readNr24 => some 0xFF19#16
  | .writeNr30 _ => some 0xFF1A#16
  | .readNr30 => some 0xFF1A#16
  | .writeNr31 _ => some 0xFF1B#16
  | .readNr31 => some 0xFF1B#16
  | .writeNr32 _ => some 0xFF1C#16
  | .readNr32 => some 0xFF1C#16
  | .writeNr33 _ => some 0xFF1D#16
  | .readNr33 => some 0xFF1D#16
  | .writeNr34 _ => some 0xFF1E#16
  | .readNr34 => some 0xFF1E#16
  | .writeNr41 _ => some 0xFF20#16
  | .readNr41 => some 0xFF20#16
  | .writeNr42 _ => some 0xFF21#16
  | .readNr42 => some 0xFF21#16
  | .writeNr43 _ => some 0xFF22#16
  | .readNr43 => some 0xFF22#16
  | .writeNr44 _ => some 0xFF23#16
  | .readNr44 => some 0xFF23#16
  | .writeNr50 _ => some 0xFF24#16
  | .readNr50 => some 0xFF24#16
  | .writeNr51 _ => some 0xFF25#16
  | .readNr51 => some 0xFF25#16
  | .writeNr52 _ => some 0xFF26#16
  | .readNr52 => some 0xFF26#16
  | .writeWave i _ => some (0xFF3#12 ++ i)
  | .readWave i => some (0xFF3#12 ++ i)
  | .writeUnusedFf15 _ => some 0xFF15#16
  | .readUnusedFf15 => some 0xFF15#16
  | .writeUnusedFf1f _ => some 0xFF1F#16
  | .readUnusedFf1f => some 0xFF1F#16
  | .writeUnusedFf27 _ => some 0xFF27#16
  | .readUnusedFf27 => some 0xFF27#16
  | .writeUnusedFf28To2f j _ => some (0x1FE5#13 ++ j)
  | .readUnusedFf28To2f j => some (0x1FE5#13 ++ j)
  | .writeOutOfWindow a _ => some a
  | .readOutOfWindow a => some a
  | .step => none
  | .sample => none

/-- The three verdicts of R84. -/
inductive DecodeVerdict where
  /-- R84(a). -/
  | invalid (why : DecodeError)
  /-- R84(b): a READ or WRITE whose address lies outside the window. -/
  | outOfWindow (i : Instr)
  /-- R84(c): the row of the table that matches. -/
  | valid (i : Instr)
  deriving DecidableEq, Repr

/-- The decoder's verdict on a word (R84). -/
def verdict (w : Word) : DecodeVerdict :=
  match decode w with
  | .error e => .invalid e
  | .ok i =>
    match i.addr? with
    | some a => if inWindow a then .valid i else .outOfWindow i
    | none => .valid i

/-- The operation word of an operation (R80, opcode_table.json). -/
def encode : Instr → Word
  | .writeNr10 d => mkWord 0b01#2 0#6 0xFF10#16 d
  | .readNr10 => mkWord 0b00#2 0#6 0xFF10#16 0#8
  | .writeNr11 d => mkWord 0b01#2 0#6 0xFF11#16 d
  | .readNr11 => mkWord 0b00#2 0#6 0xFF11#16 0#8
  | .writeNr12 d => mkWord 0b01#2 0#6 0xFF12#16 d
  | .readNr12 => mkWord 0b00#2 0#6 0xFF12#16 0#8
  | .writeNr13 d => mkWord 0b01#2 0#6 0xFF13#16 d
  | .readNr13 => mkWord 0b00#2 0#6 0xFF13#16 0#8
  | .writeNr14 d => mkWord 0b01#2 0#6 0xFF14#16 d
  | .readNr14 => mkWord 0b00#2 0#6 0xFF14#16 0#8
  | .writeNr21 d => mkWord 0b01#2 0#6 0xFF16#16 d
  | .readNr21 => mkWord 0b00#2 0#6 0xFF16#16 0#8
  | .writeNr22 d => mkWord 0b01#2 0#6 0xFF17#16 d
  | .readNr22 => mkWord 0b00#2 0#6 0xFF17#16 0#8
  | .writeNr23 d => mkWord 0b01#2 0#6 0xFF18#16 d
  | .readNr23 => mkWord 0b00#2 0#6 0xFF18#16 0#8
  | .writeNr24 d => mkWord 0b01#2 0#6 0xFF19#16 d
  | .readNr24 => mkWord 0b00#2 0#6 0xFF19#16 0#8
  | .writeNr30 d => mkWord 0b01#2 0#6 0xFF1A#16 d
  | .readNr30 => mkWord 0b00#2 0#6 0xFF1A#16 0#8
  | .writeNr31 d => mkWord 0b01#2 0#6 0xFF1B#16 d
  | .readNr31 => mkWord 0b00#2 0#6 0xFF1B#16 0#8
  | .writeNr32 d => mkWord 0b01#2 0#6 0xFF1C#16 d
  | .readNr32 => mkWord 0b00#2 0#6 0xFF1C#16 0#8
  | .writeNr33 d => mkWord 0b01#2 0#6 0xFF1D#16 d
  | .readNr33 => mkWord 0b00#2 0#6 0xFF1D#16 0#8
  | .writeNr34 d => mkWord 0b01#2 0#6 0xFF1E#16 d
  | .readNr34 => mkWord 0b00#2 0#6 0xFF1E#16 0#8
  | .writeNr41 d => mkWord 0b01#2 0#6 0xFF20#16 d
  | .readNr41 => mkWord 0b00#2 0#6 0xFF20#16 0#8
  | .writeNr42 d => mkWord 0b01#2 0#6 0xFF21#16 d
  | .readNr42 => mkWord 0b00#2 0#6 0xFF21#16 0#8
  | .writeNr43 d => mkWord 0b01#2 0#6 0xFF22#16 d
  | .readNr43 => mkWord 0b00#2 0#6 0xFF22#16 0#8
  | .writeNr44 d => mkWord 0b01#2 0#6 0xFF23#16 d
  | .readNr44 => mkWord 0b00#2 0#6 0xFF23#16 0#8
  | .writeNr50 d => mkWord 0b01#2 0#6 0xFF24#16 d
  | .readNr50 => mkWord 0b00#2 0#6 0xFF24#16 0#8
  | .writeNr51 d => mkWord 0b01#2 0#6 0xFF25#16 d
  | .readNr51 => mkWord 0b00#2 0#6 0xFF25#16 0#8
  | .writeNr52 d => mkWord 0b01#2 0#6 0xFF26#16 d
  | .readNr52 => mkWord 0b00#2 0#6 0xFF26#16 0#8
  | .writeWave i d => mkWord 0b01#2 0#6 (0xFF3#12 ++ i) d
  | .readWave i => mkWord 0b00#2 0#6 (0xFF3#12 ++ i) 0#8
  | .writeUnusedFf15 d => mkWord 0b01#2 0#6 0xFF15#16 d
  | .readUnusedFf15 => mkWord 0b00#2 0#6 0xFF15#16 0#8
  | .writeUnusedFf1f d => mkWord 0b01#2 0#6 0xFF1F#16 d
  | .readUnusedFf1f => mkWord 0b00#2 0#6 0xFF1F#16 0#8
  | .writeUnusedFf27 d => mkWord 0b01#2 0#6 0xFF27#16 d
  | .readUnusedFf27 => mkWord 0b00#2 0#6 0xFF27#16 0#8
  | .writeUnusedFf28To2f j d => mkWord 0b01#2 0#6 (0x1FE5#13 ++ j) d
  | .readUnusedFf28To2f j => mkWord 0b00#2 0#6 (0x1FE5#13 ++ j) 0#8
  | .writeOutOfWindow a d => mkWord 0b01#2 0#6 a d
  | .readOutOfWindow a => mkWord 0b00#2 0#6 a 0#8
  | .step => mkWord 0b10#2 0#6 0#16 0#8
  | .sample => mkWord 0b11#2 0#6 0#16 0#8

/-- What the decoder reads from a table row's bits `w`, `nbits` of them; the bits above are 0. Every operation word
is one 32-bit word (R80), so bit 0 of the table is bit 0 of the word. -/
def decodeTableWord (nbits w : Nat) : Option Instr :=
  match decode (BitVec.ofNat 32 (w % 2 ^ nbits)) with
  | .ok i => some i
  | .error _ => none

end Sys2Proof
end

