-- ==== Sys2Proof/Config.lean ====
section
/-! DEFINITION. The named parameters of 00_scope R9, as plain data, with the spec's default of each; the byte an unlisted
wave-RAM address reads as; and the one free value of the model. -/

namespace Sys2Proof

/-- `SWEEP_OVERFLOW` (R9, R17): what a sweep sum above 2047 does. -/
inductive SweepOverflowPolicy where
  | fault
  | wrap11
  | disable
  deriving DecidableEq, Repr

/-- `BUS_RANGE_POLICY` (R9, R281): what an access outside the window does. -/
inductive BusRangePolicy where
  | fault
  | ignore
  deriving DecidableEq, Repr

/-- `POWER_OFF_POLICY` (R9, R284): what a power-off write, and a register write while powered off, do. -/
inductive PowerOffPolicy where
  | refuse
  | storeOnly
  deriving DecidableEq, Repr

/-- The parameters of 00_scope R9. They are inputs to the step relation (R19); no operation writes one. -/
structure Params where
  /-- `DUTY_TABLE`: element `k` of a row is the value at `duty_idx = k`. -/
  dutyTable : Vector (Vector Bool 8) 4
  /-- `NOISE_DIVISOR_TABLE`. -/
  noiseDivisorTable : Vector Nat 8
  /-- `WAVE_SHIFT_TABLE`. -/
  waveShiftTable : Vector Nat 4
  /-- `READ_MASK`: element `k` is the mask of address 0xFF10 + k (30_encoding R92). -/
  readMask : Vector Byte 48
  /-- `SWEEP_OVERFLOW`. -/
  sweepOverflow : SweepOverflowPolicy
  /-- `ENV_FREEZE_LATCH`. -/
  envFreezeLatch : Bool
  /-- `BUS_RANGE_POLICY`. -/
  busRange : BusRangePolicy
  /-- `POWER_OFF_POLICY`. -/
  powerOff : PowerOffPolicy
  /-- `WAVE_RAM_INIT`: element `i` is the reset value of `ch3.wave_ram[i]`. -/
  waveRamInit : Vector Byte 16
  deriving DecidableEq, Repr

/-- The default of every parameter, which is "the value this spec takes" (R9); the read masks are the table of
30_encoding R92. -/
def Params.default : Params where
  dutyTable := #v[
    #v[false, false, false, false, false, false, false, true],
    #v[true, false, false, false, false, false, false, true],
    #v[true, false, false, false, false, true, true, true],
    #v[false, true, true, true, true, true, true, false]]
  noiseDivisorTable := #v[8, 16, 32, 48, 64, 80, 96, 112]
  waveShiftTable := #v[0, 1, 2, 3]
  readMask := #v[
    0x80, 0x3F, 0x00, 0xFF, 0xBF,        -- FF10-FF14  NR10-NR14
    0xFF, 0x3F, 0x00, 0xFF, 0xBF,        -- FF15 unused, FF16-FF19  NR21-NR24
    0x7F, 0xFF, 0x9F, 0xFF, 0xBF,        -- FF1A-FF1E  NR30-NR34
    0xFF, 0xFF, 0x00, 0x00, 0xBF,        -- FF1F unused, FF20-FF23  NR41-NR44
    0x00, 0x00, 0x70,                    -- FF24-FF26  NR50-NR52
    0xFF, 0xFF, 0xFF, 0xFF, 0xFF, 0xFF, 0xFF, 0xFF, 0xFF,   -- FF27-FF2F unused
    0x00, 0x00, 0x00, 0x00, 0x00, 0x00, 0x00, 0x00,         -- FF30-FF3F  wave RAM
    0x00, 0x00, 0x00, 0x00, 0x00, 0x00, 0x00, 0x00]
  sweepOverflow := .fault
  envFreezeLatch := true
  busRange := .fault
  powerOff := .refuse
  waveRamInit := #v[0, 0, 0, 0, 0, 0, 0, 0, 0, 0, 0, 0, 0, 0, 0, 0]

/-- What a wave-RAM byte that is not listed reads as: the default reset contents, 0x00 (R9, 10_state R27). -/
def Config.unlistedByte : Byte := 0x00#8

/-- FREE VALUE (log entry 4): the byte an out-of-window READ returns under `BUS_RANGE_POLICY = ignore`, "a byte the
model draws freely (any of 0..255, under no law)" (60_exceptions R281). The argument is the number of the draw. -/
opaque Config.freeByte : Nat → Byte

end Sys2Proof
end

