-- ==== Sys2Proof/Machine/State.lean ====
section
/-! DEFINITION. The machine's state: the block's state of spec/10_state.md (`Apu`), the inputs of the step relation that
00_scope R19 names (the operation stream and the parameters), and the values the block has handed to its host; the
reasons a run stops (60_exceptions R280); and the state after reset (70_reset_and_hazards R300, R301). -/

namespace Sys2Proof.Machine

/-- The fault reasons of 60_exceptions R280. -/
inductive Fault where
  /-- Raised by a READ or WRITE of `addr` outside 0xFF10-0xFF3F under `BUS_RANGE_POLICY = fault` (R281). Safe: the
  model stops where the original tolerates the access. -/
  | busRange (addr : Addr)
  /-- Raised by STEP alone, when a sweep addition gives `nf > 2047` under `SWEEP_OVERFLOW = fault` (R134, R282).
  Safe: the model stops where the chip goes on. -/
  | sweepOverflow (nf : Nat)
  deriving DecidableEq, Repr

/-- The refusal reasons of 60_exceptions R280, and the interface's own `notModelled`. -/
inductive Refusal where
  /-- Raised by an arm of `exec` whose instruction has no meaning yet; no arm raises it. Safe. -/
  | notModelled (mnemonic : String)
  /-- Raised by the step on an operation word the decoder calls invalid (R84(a), R283). Safe: such a word exists in the
  model's notation only. -/
  | reservedOperationBits (word : Word)
  /-- Raised under `POWER_OFF_POLICY = refuse` by WRITE NR52 with bit 7 clear, and by a WRITE to 0xFF10-0xFF25 while
  `apu.power = 0` (R261, R284). Safe: the model stops where the chip goes on. -/
  | powerOffUnmodelled (word : Word)
  deriving DecidableEq, Repr

/-- The wave RAM as address and byte pairs: addresses strictly rising, no byte equal to `Config.unlistedByte`.
The addresses are bus addresses, 0xFF30-0xFF3F (10_state R62, R63). -/
abbrev Memory := List Host.Cell

/-- The fields common to the four channels (10_state R22). -/
structure Channel where
  enabled : Bool
  dacEnabled : Bool
  lengthEnabled : Bool
  lengthCounter : Nat
  /-- The frequency timer. -/
  period : Nat
  deriving DecidableEq, Repr

/-- The envelope fields of channels 1, 2 and 4 (10_state R25). -/
structure Envelope where
  volume : Nat
  volumeInit : BitVec 4
  /-- 1 = increase, 0 = decrease. -/
  envDirection : Bool
  volumePeriod : BitVec 3
  volumeCounter : Nat
  envFrozen : Bool
  deriving DecidableEq, Repr

/-- A pulse channel, 1 or 2 (10_state R22-R25). -/
structure Pulse extends Channel, Envelope where
  frequency : BitVec 11
  duty : BitVec 2
  dutyIdx : BitVec 3
  deriving DecidableEq, Repr

/-- Channel 1's frequency-sweep fields (10_state R26). -/
structure Sweep where
  sweepTime : BitVec 3
  /-- 1 = subtract, 0 = add. -/
  sweepDirection : Bool
  sweepShifts : BitVec 3
  sweepCounter : Nat
  deriving DecidableEq, Repr

/-- The wave channel, 3 (10_state R22, R23, R27). -/
structure Wave extends Channel where
  frequency : BitVec 11
  waveRam : Memory
  sampleNibble : BitVec 5
  sampleBuffer : BitVec 4
  volumeCode : BitVec 2
  deriving DecidableEq, Repr

/-- The noise channel, 4 (10_state R22, R25, R28). -/
structure Noise extends Channel, Envelope where
  lfsr : BitVec 15
  clockShift : BitVec 4
  divisorCode : BitVec 3
  /-- 1 = the narrow (7-bit) tap. -/
  widthMode : Bool
  deriving DecidableEq, Repr

/-- The frame sequencer (10_state R29). -/
structure FrameSequencer where
  period : Nat
  frame : BitVec 3
  deriving DecidableEq, Repr

/-- One routing flag for each channel (10_state R30). -/
structure Routing where
  ch1 : Bool
  ch2 : Bool
  ch3 : Bool
  ch4 : Bool
  deriving DecidableEq, Repr

/-- The mixer (10_state R30). -/
structure Mixer where
  leftVolume : BitVec 3
  rightVolume : BitVec 3
  routeLeft : Routing
  routeRight : Routing
  vinLeft : Bool
  vinRight : Bool
  deriving DecidableEq, Repr

/-- The block's state (10_state R22-R31), with the sticky fault and refusal marks of 60_exceptions R280. -/
structure Apu where
  ch1 : Pulse
  /-- Channel 1's sweep; channel 2 has none (R26, R136). -/
  sweep : Sweep
  ch2 : Pulse
  ch3 : Wave
  ch4 : Noise
  fs : FrameSequencer
  mix : Mixer
  /-- NR52 bit 7 (R31). -/
  power : Bool
  /-- `apu.fault` (R31). -/
  fault : Option Fault
  /-- The refusal mark (R280). -/
  refusal : Option Refusal
  deriving DecidableEq, Repr

/-- What an operation hands to the host: a READ's byte (30_encoding R81) or a SAMPLE's pair (44_mixer R259). -/
inductive Reply where
  | byte (b : Byte)
  | pair (left right : Rat)
  deriving DecidableEq, Repr

/-- The host's side: its program and its position in it (10_state R21), what it has been given, newest first (log entry
3), and how many free bytes have been drawn (log entry 4). -/
structure HostPort where
  program : List Word
  position : Nat
  replies : List Reply
  draws : Nat
  deriving DecidableEq, Repr

/-- The state of the machine: the block, and the inputs of the step relation (00_scope R19). -/
structure State where
  /-- The parameters of 00_scope R9; no operation writes them. -/
  params : Params
  host : HostPort
  apu : Apu
  deriving DecidableEq, Repr

/-- A channel at reset (R22). -/
def Channel.reset : Channel := ⟨false, false, false, 0, 0⟩

/-- An envelope at reset (R25). -/
def Envelope.reset : Envelope := ⟨0, 0, false, 0, 0, false⟩

/-- A pulse channel at reset (R22-R25). -/
def Pulse.reset : Pulse where
  toChannel := Channel.reset
  toEnvelope := Envelope.reset
  frequency := 0
  duty := 0
  dutyIdx := 0

/-- Channel 1's sweep at reset (R26). -/
def Sweep.reset : Sweep := ⟨0, false, 0, 0⟩

/-- The wave RAM that holds the bytes of `init` from 0xFF30 on, in canonical form (R27). -/
def initialWaveRam (init : List Byte) : Memory :=
  (init.zipIdx 0xFF30).filterMap fun (b, a) => if b = Config.unlistedByte then none else some (a, b)

/-- The wave channel at reset (R22, R23, R27). -/
def Wave.reset (p : Params) : Wave where
  toChannel := Channel.reset
  frequency := 0
  waveRam := initialWaveRam p.waveRamInit.toList
  sampleNibble := 0
  sampleBuffer := 0
  volumeCode := 0

/-- The noise channel at reset (R22, R25, R28). -/
def Noise.reset : Noise where
  toChannel := Channel.reset
  toEnvelope := Envelope.reset
  lfsr := 0
  clockShift := 0
  divisorCode := 0
  widthMode := false

/-- The frame sequencer at reset (R29). -/
def FrameSequencer.reset : FrameSequencer := ⟨8192, 0⟩

/-- The mixer at reset (R30). -/
def Mixer.reset : Mixer where
  leftVolume := 0
  rightVolume := 0
  routeLeft := ⟨false, false, false, false⟩
  routeRight := ⟨false, false, false, false⟩
  vinLeft := false
  vinRight := false

/-- The block at reset under parameters `p` (70_reset R300, R301). -/
def Apu.reset (p : Params) : Apu where
  ch1 := Pulse.reset
  sweep := Sweep.reset
  ch2 := Pulse.reset
  ch3 := Wave.reset p
  ch4 := Noise.reset
  fs := FrameSequencer.reset
  mix := Mixer.reset
  power := false
  fault := none
  refusal := none

/-- The machine right after reset under parameters `p`, the host with no operation to issue (log entry 1). -/
def State.resetWith (p : Params) : State where
  params := p
  host := ⟨[], 0, [], 0⟩
  apu := Apu.reset p

/-- The machine right after reset, with the default parameters (R9, R300). -/
def State.reset : State := State.resetWith Params.default

end Sys2Proof.Machine
end

