-- ==== Sys2Proof/Machine/Ops.lean ====
section
/-! DEFINITION. The named operations over the state: the wave RAM's read and write, the updates of one unit, the countdown of
40_pulse R129, raising a fault and refusing (60_exceptions R280), how an operation is performed, the replies to the
host, the read mask, the power gate, and the host's operation stream. -/

namespace Sys2Proof.Machine

/-! ## The wave RAM -/

/-- The byte at a bus address; an address not listed reads `Config.unlistedByte`. -/
def Memory.read : Memory → Nat → Byte
  | [], _ => Config.unlistedByte
  | (b, v) :: m, a => if a = b then v else Memory.read m a

/-- The cell list `m` with a cell for `a` before it, unless `v` is what an unlisted address reads as. -/
def Memory.cons (a : Nat) (v : Byte) (m : Memory) : Memory :=
  if v = Config.unlistedByte then m else (a, v) :: m

/-- Store `v` at `a`, keeping the canonical form. -/
def Memory.write : Memory → Nat → Byte → Memory
  | [], a, v => Memory.cons a v []
  | (b, w) :: m, a, v =>
    if a < b then Memory.cons a v ((b, w) :: m)
    else if a = b then Memory.cons a v m
    else (b, w) :: Memory.write m a v

/-- Every address of `m` is above `a`. -/
def Memory.above (a : Nat) (m : Memory) : Bool := m.all fun c => decide (a < c.1)

/-- The canonical form: addresses strictly rising, no cell equal to what an unlisted address reads as. -/
def Memory.wf : Memory → Bool
  | [] => true
  | (a, v) :: m => decide (v ≠ Config.unlistedByte) && Memory.above a m && Memory.wf m

/-- Every listed address is one of the sixteen of the wave RAM (10_state R62). -/
def Memory.inWaveRam (m : Memory) : Bool := m.all fun c => decide (0xFF30 ≤ c.1) && decide (c.1 ≤ 0xFF3F)

/-- The bus address of wave-RAM byte `i` (10_state R62). -/
def waveAddr (i : BitVec 4) : Nat := 0xFF30 + i.toNat

/-! ## Updates of one unit -/

/-- Apply `f` to channel 1. -/
def Apu.mapCh1 (f : Pulse → Pulse) (a : Apu) : Apu := { a with ch1 := f a.ch1 }
/-- Apply `f` to channel 1's sweep. -/
def Apu.mapSweep (f : Sweep → Sweep) (a : Apu) : Apu := { a with sweep := f a.sweep }
/-- Apply `f` to channel 2. -/
def Apu.mapCh2 (f : Pulse → Pulse) (a : Apu) : Apu := { a with ch2 := f a.ch2 }
/-- Apply `f` to channel 3. -/
def Apu.mapCh3 (f : Wave → Wave) (a : Apu) : Apu := { a with ch3 := f a.ch3 }
/-- Apply `f` to channel 4. -/
def Apu.mapCh4 (f : Noise → Noise) (a : Apu) : Apu := { a with ch4 := f a.ch4 }
/-- Set the frame sequencer. -/
def Apu.setFs (v : FrameSequencer) (a : Apu) : Apu := { a with fs := v }
/-- Apply `f` to the mixer. -/
def Apu.mapMix (f : Mixer → Mixer) (a : Apu) : Apu := { a with mix := f a.mix }
/-- Set the power bit. -/
def Apu.setPower (b : Bool) (a : Apu) : Apu := { a with power := b }
/-- Apply `f`, which may read the parameters, to the block. -/
def State.onApu (f : Params → Apu → Apu) (s : State) : State := { s with apu := f s.params s.apu }

/-! ## The countdown -/

/-- `Countdown(x, r)` (40_pulse R129): the counter after one clock, and whether it expired. -/
def countdown (x r : Nat) : Nat × Bool :=
  let y := if x > 0 then x - 1 else x
  if y = 0 then (r, true) else (y, false)

/-! ## Stopping: raise, refuse, and performing an operation -/

/-- `raise Fault(r)` (00_scope R12, 60_exceptions R280): the sticky mark is set; nothing else changes. It is the only
way an operation faults; there is no trap and no return from one (R287, R288). -/
def Apu.raiseFault (r : Fault) (a : Apu) : Apu := { a with fault := some r }

/-- `refuse(r)` (R280): the sticky refusal mark is set; nothing else changes. -/
def Apu.refuse (r : Refusal) (a : Apu) : Apu := { a with refusal := some r }

/-- The outcome a state stands for: "In a state with a fault or a refusal mark, no operation has a step" (R280). -/
def settle (s : State) : Host.Outcome State Fault Refusal :=
  match s.apu.fault with
  | some r => .fault r
  | none =>
    match s.apu.refusal with
    | some r => .refused r
    | none => .next s

/-- Perform an operation whose effect is `f`: not at all in a marked state, and ending the run if `f` sets a mark. -/
def perform (f : State → State) (s : State) : Host.Outcome State Fault Refusal :=
  match settle s with
  | .next s => settle (f s)
  | .fault r => .fault r
  | .refused r => .refused r

/-! ## Replies, reads and gated writes -/

/-- Hand a reply to the host (30_encoding R81, 44_mixer R259); the block does not change. -/
def deliver (r : Reply) (s : State) : State := { s with host := { s.host with replies := r :: s.host.replies } }

/-- Hand the host a byte drawn freely (60_exceptions R281, log entry 4). -/
def deliverFree (s : State) : State :=
  { s with
    host := { s.host with
      replies := .byte (Config.freeByte s.host.draws) :: s.host.replies
      draws := s.host.draws + 1 } }

/-- `READ_MASK(a)` for an address of the window (30_encoding R92). -/
def readMaskAt (p : Params) (a : Addr) : Byte := p.readMask[a.toNat - 0xFF10]?.getD 0xFF#8

/-- A READ of `a`, whose natural value is `natural` (R91): the host gets `Natural(a) | READ_MASK(a)` (R92). -/
def readByte (a : Addr) (natural : Apu → Byte) (s : State) : State :=
  deliver (.byte (natural s.apu ||| readMaskAt s.params a)) s

/-- The registers whose WRITE the power gate covers: 0xFF10-0xFF25 (44_mixer R261). -/
def powerGated (a : Addr) : Bool := decide (0xFF10 ≤ a.toNat) && decide (a.toNat ≤ 0xFF25)

/-- A WRITE, spelled `word`, of address `a` in the window, with effect `f`: refused under `POWER_OFF_POLICY = refuse`
while `apu.power = 0` where the gate covers `a` (R261, R284). -/
def writeByte (word : Word) (a : Addr) (f : Params → Apu → Apu) (s : State) : State :=
  if s.params.powerOff = .refuse ∧ s.apu.power = false ∧ powerGated a = true then
    s.onApu fun _ => Apu.refuse (.powerOffUnmodelled word)
  else s.onApu f

/-- An access to `a` outside the window (60_exceptions R281): a fault, or what `ignored` says. -/
def outOfWindow (a : Addr) (ignored : State → State) (s : State) : State :=
  match s.params.busRange with
  | .fault => s.onApu fun _ => Apu.raiseFault (.busRange a)
  | .ignore => ignored s

/-! ## The operation stream -/

/-- The operation the host issues next, if any (10_state R21). -/
def fetchWord (s : State) : Option Word := s.host.program[s.host.position]?

/-- The host moves to its next operation. -/
def advance (s : State) : State := { s with host := { s.host with position := s.host.position + 1 } }

/-- The host's program with `w` as the operation it issues next; words before the position that the program lacks are
filled with 0 and are never issued. -/
def placeWord (w : Word) (s : State) : State :=
  let h := s.host
  { s with
    host := { h with
      program := h.program.take h.position ++ List.replicate (h.position - h.program.length) 0#32
        ++ w :: h.program.drop (h.position + 1) } }

end Sys2Proof.Machine
end

