-- ==== Sys2Proof/Machine/Operands.lean ====
section
/-! DEFINITION. Operand assembly: the fields of a WRITE's data byte (30_encoding R86), the 11-bit frequency (R87), the length
loads (R88), and the natural values READs compose from the same layouts (10_state R40-R62, 30_encoding R91). -/

namespace Sys2Proof.Machine

/-! ## Fields of a data byte (R86) -/

/-- NR11, NR21: `duty = d[7:6]`. -/
def dutyField (d : Byte) : BitVec 2 := d.extractLsb' 6 2
/-- NR11, NR21, NR41: the length load `64 − d[5:0]`, in 1..64 (R88). -/
def lengthLoad64 (d : Byte) : Nat := 64 - (d.extractLsb' 0 6).toNat
/-- NR31: the length load `256 − d[7:0]`, in 1..256 (R88). -/
def lengthLoad256 (d : Byte) : Nat := 256 - d.toNat
/-- NRx2: `volume_init = d[7:4]`. -/
def volumeInitField (d : Byte) : BitVec 4 := d.extractLsb' 4 4
/-- NRx2: `env_direction = d[3]`. -/
def envDirectionField (d : Byte) : Bool := d.getLsbD 3
/-- NRx2: `volume_period = d[2:0]`. -/
def volumePeriodField (d : Byte) : BitVec 3 := d.extractLsb' 0 3
/-- NRx2: `dac = (d[7:3] ≠ 0)`. -/
def envDacField (d : Byte) : Bool := d.extractLsb' 3 5 != 0#5
/-- NRx4: `trig = d[7]`. -/
def triggerField (d : Byte) : Bool := d.getLsbD 7
/-- NRx4: `len_en = d[6]`. -/
def lengthEnableField (d : Byte) : Bool := d.getLsbD 6
/-- NR10: `sweep_time = d[6:4]`. -/
def sweepTimeField (d : Byte) : BitVec 3 := d.extractLsb' 4 3
/-- NR10: `sweep_direction = d[3]`. -/
def sweepDirectionField (d : Byte) : Bool := d.getLsbD 3
/-- NR10: `sweep_shifts = d[2:0]`. -/
def sweepShiftsField (d : Byte) : BitVec 3 := d.extractLsb' 0 3
/-- NR30: `dac = d[7]`. -/
def waveDacField (d : Byte) : Bool := d.getLsbD 7
/-- NR32: `volume_code = d[6:5]`. -/
def volumeCodeField (d : Byte) : BitVec 2 := d.extractLsb' 5 2
/-- NR43: `clock_shift = d[7:4]`. -/
def clockShiftField (d : Byte) : BitVec 4 := d.extractLsb' 4 4
/-- NR43: `width_mode = d[3]`. -/
def widthModeField (d : Byte) : Bool := d.getLsbD 3
/-- NR43: `divisor_code = d[2:0]`. -/
def divisorCodeField (d : Byte) : BitVec 3 := d.extractLsb' 0 3
/-- NR50: `vin_left = d[7]`. -/
def vinLeftField (d : Byte) : Bool := d.getLsbD 7
/-- NR50: `left_volume = d[6:4]`. -/
def leftVolumeField (d : Byte) : BitVec 3 := d.extractLsb' 4 3
/-- NR50: `vin_right = d[3]`. -/
def vinRightField (d : Byte) : Bool := d.getLsbD 3
/-- NR50: `right_volume = d[2:0]`. -/
def rightVolumeField (d : Byte) : BitVec 3 := d.extractLsb' 0 3
/-- NR51: `route_left[c] = d[c+3]`. -/
def routeLeftField (d : Byte) : Routing := ⟨d.getLsbD 4, d.getLsbD 5, d.getLsbD 6, d.getLsbD 7⟩
/-- NR51: `route_right[c] = d[c−1]`. -/
def routeRightField (d : Byte) : Routing := ⟨d.getLsbD 0, d.getLsbD 1, d.getLsbD 2, d.getLsbD 3⟩
/-- NR52: `power = d[7]`. -/
def powerField (d : Byte) : Bool := d.getLsbD 7

/-! ## The 11-bit frequency (R87) -/

/-- NRx3: `{frequency[10:8], flo}`. -/
def frequencyLow (f : BitVec 11) (d : Byte) : BitVec 11 := f.extractLsb' 8 3 ++ d
/-- NRx4: `{fhi, frequency[7:0]}` with `fhi = d[2:0]`. -/
def frequencyHigh (f : BitVec 11) (d : Byte) : BitVec 11 := d.extractLsb' 0 3 ++ f.extractLsb' 0 8

/-! ## Natural values (R91): bits that hold no readable field are 0 -/

/-- NR10 (40_pulse R119). -/
def naturalSweep (w : Sweep) : Byte :=
  0#1 ++ w.sweepTime ++ BitVec.ofBool w.sweepDirection ++ w.sweepShifts
/-- NR11, NR21 (R120, R124). -/
def naturalDuty (c : Pulse) : Byte := c.duty ++ 0#6
/-- NR12, NR22, NR42 (R121, R125, 42_noise R206). -/
def naturalEnvelope (e : Envelope) : Byte := e.volumeInit ++ BitVec.ofBool e.envDirection ++ e.volumePeriod
/-- NR14, NR24, NR34, NR44 (R123, R127, R180, R208). -/
def naturalControl (c : Channel) : Byte := 0#1 ++ BitVec.ofBool c.lengthEnabled ++ 0#6
/-- NR30 (41_wave R176): bit 7 is `ch3.enabled` (90_conflicts C4). -/
def naturalWavePower (c : Wave) : Byte := BitVec.ofBool c.enabled ++ 0#7
/-- NR32 (R178). -/
def naturalWaveVolume (c : Wave) : Byte := 0#1 ++ c.volumeCode ++ 0#5
/-- NR43 (42_noise R207). -/
def naturalPolynomial (c : Noise) : Byte := c.clockShift ++ BitVec.ofBool c.widthMode ++ c.divisorCode
/-- NR50 (44_mixer R251). -/
def naturalMasterVolume (m : Mixer) : Byte :=
  BitVec.ofBool m.vinLeft ++ m.leftVolume ++ BitVec.ofBool m.vinRight ++ m.rightVolume
/-- The four flags of a side, channel 4 in the high bit (R253). -/
def routingBits (r : Routing) : BitVec 4 :=
  BitVec.ofBool r.ch4 ++ BitVec.ofBool r.ch3 ++ BitVec.ofBool r.ch2 ++ BitVec.ofBool r.ch1
/-- NR51 (R253). -/
def naturalRouting (m : Mixer) : Byte := routingBits m.routeLeft ++ routingBits m.routeRight
/-- A register or address with no readable bit: NR13, NR23, NR31, NR33, NR41 (90_conflicts C8) and the unused
addresses (R263). -/
def naturalNone (_ : Apu) : Byte := 0#8

end Sys2Proof.Machine
end

