-- ==== Sys2Proof/Machine/Flags.lean ====
section
/-! DEFINITION. The channel-active flags `chc.enabled` (10_state R35): every rule that writes or reads them. -/

namespace Sys2Proof.Machine

/-- A DAC write: `dac_enabled <- dac`, and `enabled` forced false when it is off (40_pulse R128, 41_wave R170; the
invariant of 10_state R32). Turning the DAC on does not set `enabled`. -/
def Channel.writeDac (dac : Bool) (c : Channel) : Channel :=
  { c with dacEnabled := dac, enabled := if dac then c.enabled else false }

/-- The part of a trigger every channel shares (40_pulse R131, 41_wave R182, 42_noise R212): the flag takes the DAC's
state, an expired length is reloaded to `lenMax`, and the timer to `reload`. -/
def Channel.trigger (lenMax reload : Nat) (c : Channel) : Channel :=
  { c with
    enabled := c.dacEnabled
    lengthCounter := if c.lengthCounter = 0 then lenMax else c.lengthCounter
    period := reload }

/-- `ClockLength(c)` (40_pulse R132). -/
def Channel.clockLength (c : Channel) : Channel :=
  if c.lengthEnabled = true ∧ c.lengthCounter > 0 then
    let n := c.lengthCounter - 1
    { c with lengthCounter := n, enabled := if n = 0 then false else c.enabled }
  else c

/-- NR52 as a READ composes it (44_mixer R256): power in bit 7, `chc.enabled` in bit c − 1. -/
def naturalStatus (a : Apu) : Byte :=
  BitVec.ofBool a.power ++ 0#3 ++ BitVec.ofBool a.ch4.enabled ++ BitVec.ofBool a.ch3.enabled
    ++ BitVec.ofBool a.ch2.enabled ++ BitVec.ofBool a.ch1.enabled

end Sys2Proof.Machine
end

