-- ==== Sys2Proof/Machine/Envelope.lean ====
section
/-! DEFINITION. The envelope unit that channels 1, 2 and 4 share (40_pulse R128, R131, R133). -/

namespace Sys2Proof.Machine

/-- The fields an envelope-register write sets (40_pulse R128); `volume`, `volume_counter` and `env_frozen` stay. -/
def Envelope.setFields (d : Byte) (e : Envelope) : Envelope :=
  { e with
    volumeInit := volumeInitField d
    envDirection := envDirectionField d
    volumePeriod := volumePeriodField d }

/-- A trigger's envelope reset (R131, 42_noise R212). -/
def Envelope.trigger (p : Params) (e : Envelope) : Envelope :=
  { e with
    volume := e.volumeInit.toNat
    volumeCounter := e.volumePeriod.toNat
    envFrozen := if p.envFreezeLatch then false else e.envFrozen }

/-- One volume step at an envelope expiry (R133): the volume moves by 1 unless that leaves 0..15, which sets the freeze
latch where the latch is in use. -/
def Envelope.stepVolume (p : Params) (e : Envelope) : Envelope :=
  if p.envFreezeLatch = true ∧ e.envFrozen = true then e
  else
    let nv : Int := if e.envDirection then (e.volume : Int) + 1 else (e.volume : Int) - 1
    if 0 ≤ nv ∧ nv ≤ 15 then { e with volume := nv.toNat }
    else if p.envFreezeLatch then { e with envFrozen := true } else e

/-- `ClockEnvelope(c)` (R133). -/
def Envelope.clock (p : Params) (e : Envelope) : Envelope :=
  if e.volumePeriod = 0#3 then e
  else
    let k := countdown e.volumeCounter e.volumePeriod.toNat
    let e := { e with volumeCounter := k.1 }
    if k.2 then e.stepVolume p else e

end Sys2Proof.Machine
end

