-- ==== Sys2Proof/Machine/Noise.lean ====
section
/-! DEFINITION. Noise channel 4 (42_noise): the LFSR, the timer, the trigger and the digital output, and the meanings of READ and
WRITE of NR41-NR44. -/

namespace Sys2Proof.Machine

/-! ## The units -/

/-- `LfsrStep(l, w)` (R209). -/
def lfsrStep (l : BitVec 15) (narrow : Bool) : BitVec 15 :=
  let bit := (l ^^^ (l >>> 1)) &&& 1#15
  let shifted := (l >>> 1) ||| (bit <<< 14)
  if narrow then (shifted &&& ~~~0x0040#15) ||| (bit <<< 6) else shifted

/-- `Reload(4)` (R211, 30_encoding R89). -/
def noiseReload (p : Params) (c : Noise) : Nat :=
  (p.noiseDivisorTable[c.divisorCode.toNat]'c.divisorCode.isLt) <<< c.clockShift.toNat

/-- `ClockFrequency(4)` (R213). -/
def Noise.clockTimer (p : Params) (c : Noise) : Noise :=
  let k := countdown c.period (noiseReload p c)
  { c with period := k.1, lfsr := if k.2 then lfsrStep c.lfsr c.widthMode else c.lfsr }

/-- `Trigger(4)` (R212). -/
def Noise.trigger (p : Params) (c : Noise) : Noise :=
  { c with
    toChannel := c.toChannel.trigger 64 (noiseReload p c)
    toEnvelope := c.toEnvelope.trigger p
    lfsr := 0x7FFF#15 }

/-- `EnvWrite(4, d)` (40_pulse R128). -/
def Noise.writeEnvelope (d : Byte) (c : Noise) : Noise :=
  { c with
    toChannel := c.toChannel.writeDac (envDacField d)
    toEnvelope := c.toEnvelope.setFields d }

/-- The write of NR43 (R202): the running timer is not reloaded. -/
def Noise.writePolynomial (d : Byte) (c : Noise) : Noise :=
  { c with clockShift := clockShiftField d, widthMode := widthModeField d, divisorCode := divisorCodeField d }

/-- The write of NR44 (R203). -/
def Noise.writeControl (p : Params) (d : Byte) (c : Noise) : Noise :=
  let c := { c with lengthEnabled := lengthEnableField d }
  if triggerField d then c.trigger p else c

/-- `NoiseDigital()` (R214). -/
def Noise.digital (c : Noise) : Nat := (1 - (c.lfsr.extractLsb' 0 1).toNat) * c.volume

/-! ## The registers -/

/-- `WRITE NR41, d` (R200). -/
def execWriteNr41 (d : Byte) (s : State) : Host.Outcome State Fault Refusal :=
  perform (writeByte (encode (.writeNr41 d)) 0xFF20#16 fun _ =>
    Apu.mapCh4 fun c => { c with lengthCounter := lengthLoad64 d }) s

/-- `READ NR41` (R205). -/
def execReadNr41 (s : State) : Host.Outcome State Fault Refusal := perform (readByte 0xFF20#16 naturalNone) s

/-- `WRITE NR42, d` (R201). -/
def execWriteNr42 (d : Byte) (s : State) : Host.Outcome State Fault Refusal :=
  perform (writeByte (encode (.writeNr42 d)) 0xFF21#16 fun _ => Apu.mapCh4 (Noise.writeEnvelope d)) s

/-- `READ NR42` (R206). -/
def execReadNr42 (s : State) : Host.Outcome State Fault Refusal :=
  perform (readByte 0xFF21#16 fun a => naturalEnvelope a.ch4.toEnvelope) s

/-- `WRITE NR43, d` (R202). -/
def execWriteNr43 (d : Byte) (s : State) : Host.Outcome State Fault Refusal :=
  perform (writeByte (encode (.writeNr43 d)) 0xFF22#16 fun _ => Apu.mapCh4 (Noise.writePolynomial d)) s

/-- `READ NR43` (R207). -/
def execReadNr43 (s : State) : Host.Outcome State Fault Refusal :=
  perform (readByte 0xFF22#16 fun a => naturalPolynomial a.ch4) s

/-- `WRITE NR44, d` (R203). -/
def execWriteNr44 (d : Byte) (s : State) : Host.Outcome State Fault Refusal :=
  perform (writeByte (encode (.writeNr44 d)) 0xFF23#16 fun p => Apu.mapCh4 (Noise.writeControl p d)) s

/-- `READ NR44` (R208). -/
def execReadNr44 (s : State) : Host.Outcome State Fault Refusal :=
  perform (readByte 0xFF23#16 fun a => naturalControl a.ch4.toChannel) s

end Sys2Proof.Machine
end

