-- ==== Sys2Proof/Machine/Pulse.lean ====
section
/-! DEFINITION. Pulse channels 1 and 2 (40_pulse): the timer, the trigger, the sweep and the digital output, and the meanings
of READ and WRITE of NR10-NR14 and NR21-NR24. -/

namespace Sys2Proof.Machine

/-! ## The units -/

/-- `Reload(c)` for c = 1, 2 (R130). -/
def pulseReload (f : BitVec 11) : Nat := (2048 - f.toNat) * 4

/-- `ClockFrequency(c)` for c = 1, 2 (R130). -/
def Pulse.clockTimer (c : Pulse) : Pulse :=
  let k := countdown c.period (pulseReload c.frequency)
  { c with period := k.1, dutyIdx := if k.2 then c.dutyIdx + 1#3 else c.dutyIdx }

/-- `Trigger(c)` for c = 1, 2 (R131): the duty phase, the frequency and the sweep stay. -/
def Pulse.trigger (p : Params) (c : Pulse) : Pulse :=
  { c with
    toChannel := c.toChannel.trigger 64 (pulseReload c.frequency)
    toEnvelope := c.toEnvelope.trigger p }

/-- The write of NR11 or NR21 (R111, R115). -/
def Pulse.writeDutyLength (d : Byte) (c : Pulse) : Pulse :=
  { c with duty := dutyField d, lengthCounter := lengthLoad64 d }

/-- `EnvWrite(c, d)` for c = 1, 2 (R128). -/
def Pulse.writeEnvelope (d : Byte) (c : Pulse) : Pulse :=
  { c with
    toChannel := c.toChannel.writeDac (envDacField d)
    toEnvelope := c.toEnvelope.setFields d }

/-- The write of NR13 or NR23 (R113, R117): the running timer is not reloaded. -/
def Pulse.writeFrequencyLow (d : Byte) (c : Pulse) : Pulse := { c with frequency := frequencyLow c.frequency d }

/-- `FreqHiWrite(c, d)` for c = 1, 2 (R137): in this order, so a trigger reloads from the new frequency. -/
def Pulse.writeFrequencyHigh (p : Params) (d : Byte) (c : Pulse) : Pulse :=
  let c := { c with frequency := frequencyHigh c.frequency d, lengthEnabled := lengthEnableField d }
  if triggerField d then c.trigger p else c

/-- The write of NR10 (R110): the sweep counter stays. -/
def Sweep.write (d : Byte) (w : Sweep) : Sweep :=
  { w with
    sweepTime := sweepTimeField d
    sweepDirection := sweepDirectionField d
    sweepShifts := sweepShiftsField d }

/-- The frequency a sweep update computes (R134); subtraction never goes below 0. -/
def sweepTarget (w : Sweep) (f : BitVec 11) : Nat :=
  let delta := f.toNat >>> w.sweepShifts.toNat
  if w.sweepDirection then f.toNat - delta else f.toNat + delta

/-- A sweep update of channel 1 to `nf` (R134, R17). -/
def Apu.applySweep (p : Params) (nf : Nat) (a : Apu) : Apu :=
  if nf ≤ 2047 then a.mapCh1 fun c => { c with frequency := BitVec.ofNat 11 nf }
  else
    match p.sweepOverflow with
    | .fault => a.raiseFault (.sweepOverflow nf)
    | .wrap11 => a.mapCh1 fun c => { c with frequency := BitVec.ofNat 11 (nf % 2048) }
    | .disable => a.mapCh1 fun c => { c with enabled := false }

/-- `ClockSweep()` (R134): it runs whatever `ch1.enabled` holds. -/
def Apu.clockSweep (p : Params) (a : Apu) : Apu :=
  if a.sweep.sweepTime = 0#3 then a
  else
    let k := countdown a.sweep.sweepCounter a.sweep.sweepTime.toNat
    let b := a.mapSweep fun w => { w with sweepCounter := k.1 }
    if k.2 then b.applySweep p (sweepTarget b.sweep b.ch1.frequency) else b

/-- `PulseDigital(c)` (R135). -/
def Pulse.digital (p : Params) (c : Pulse) : Nat :=
  let row := p.dutyTable[c.duty.toNat]'c.duty.isLt
  (if row[c.dutyIdx.toNat]'c.dutyIdx.isLt then 1 else 0) * c.volume

/-! ## Channel 1's registers -/

/-- `WRITE NR10, d` (R110). -/
def execWriteNr10 (d : Byte) (s : State) : Host.Outcome State Fault Refusal :=
  perform (writeByte (encode (.writeNr10 d)) 0xFF10#16 fun _ => Apu.mapSweep (Sweep.write d)) s

/-- `READ NR10` (R119). -/
def execReadNr10 (s : State) : Host.Outcome State Fault Refusal :=
  perform (readByte 0xFF10#16 fun a => naturalSweep a.sweep) s

/-- `WRITE NR11, d` (R111). -/
def execWriteNr11 (d : Byte) (s : State) : Host.Outcome State Fault Refusal :=
  perform (writeByte (encode (.writeNr11 d)) 0xFF11#16 fun _ => Apu.mapCh1 (Pulse.writeDutyLength d)) s

/-- `READ NR11` (R120). -/
def execReadNr11 (s : State) : Host.Outcome State Fault Refusal :=
  perform (readByte 0xFF11#16 fun a => naturalDuty a.ch1) s

/-- `WRITE NR12, d` (R112). -/
def execWriteNr12 (d : Byte) (s : State) : Host.Outcome State Fault Refusal :=
  perform (writeByte (encode (.writeNr12 d)) 0xFF12#16 fun _ => Apu.mapCh1 (Pulse.writeEnvelope d)) s

/-- `READ NR12` (R121): the stored initial volume, not the current one. -/
def execReadNr12 (s : State) : Host.Outcome State Fault Refusal :=
  perform (readByte 0xFF12#16 fun a => naturalEnvelope a.ch1.toEnvelope) s

/-- `WRITE NR13, d` (R113). -/
def execWriteNr13 (d : Byte) (s : State) : Host.Outcome State Fault Refusal :=
  perform (writeByte (encode (.writeNr13 d)) 0xFF13#16 fun _ => Apu.mapCh1 (Pulse.writeFrequencyLow d)) s

/-- `READ NR13` (R122). -/
def execReadNr13 (s : State) : Host.Outcome State Fault Refusal := perform (readByte 0xFF13#16 naturalNone) s

/-- `WRITE NR14, d` (R114). -/
def execWriteNr14 (d : Byte) (s : State) : Host.Outcome State Fault Refusal :=
  perform (writeByte (encode (.writeNr14 d)) 0xFF14#16 fun p => Apu.mapCh1 (Pulse.writeFrequencyHigh p d)) s

/-- `READ NR14` (R123). -/
def execReadNr14 (s : State) : Host.Outcome State Fault Refusal :=
  perform (readByte 0xFF14#16 fun a => naturalControl a.ch1.toChannel) s

/-! ## Channel 2's registers: channel 1's, without the sweep (R136) -/

/-- `WRITE NR21, d` (R115). -/
def execWriteNr21 (d : Byte) (s : State) : Host.Outcome State Fault Refusal :=
  perform (writeByte (encode (.writeNr21 d)) 0xFF16#16 fun _ => Apu.mapCh2 (Pulse.writeDutyLength d)) s

/-- `READ NR21` (R124). -/
def execReadNr21 (s : State) : Host.Outcome State Fault Refusal :=
  perform (readByte 0xFF16#16 fun a => naturalDuty a.ch2) s

/-- `WRITE NR22, d` (R116). -/
def execWriteNr22 (d : Byte) (s : State) : Host.Outcome State Fault Refusal :=
  perform (writeByte (encode (.writeNr22 d)) 0xFF17#16 fun _ => Apu.mapCh2 (Pulse.writeEnvelope d)) s

/-- `READ NR22` (R125). -/
def execReadNr22 (s : State) : Host.Outcome State Fault Refusal :=
  perform (readByte 0xFF17#16 fun a => naturalEnvelope a.ch2.toEnvelope) s

/-- `WRITE NR23, d` (R117). -/
def execWriteNr23 (d : Byte) (s : State) : Host.Outcome State Fault Refusal :=
  perform (writeByte (encode (.writeNr23 d)) 0xFF18#16 fun _ => Apu.mapCh2 (Pulse.writeFrequencyLow d)) s

/-- `READ NR23` (R126). -/
def execReadNr23 (s : State) : Host.Outcome State Fault Refusal := perform (readByte 0xFF18#16 naturalNone) s

/-- `WRITE NR24, d` (R118). -/
def execWriteNr24 (d : Byte) (s : State) : Host.Outcome State Fault Refusal :=
  perform (writeByte (encode (.writeNr24 d)) 0xFF19#16 fun p => Apu.mapCh2 (Pulse.writeFrequencyHigh p d)) s

/-- `READ NR24` (R127). -/
def execReadNr24 (s : State) : Host.Outcome State Fault Refusal :=
  perform (readByte 0xFF19#16 fun a => naturalControl a.ch2.toChannel) s

end Sys2Proof.Machine
end

