-- ==== Sys2Proof/Machine/Wave.lean ====
section
/-! DEFINITION. Wave channel 3 (41_wave): the timer, the trigger and the digital output, and the meanings of READ and WRITE of
NR30-NR34 and of the wave RAM. -/

namespace Sys2Proof.Machine

/-! ## The units -/

/-- `Reload(3)` (R181). -/
def waveReload (f : BitVec 11) : Nat := (2048 - f.toNat) * 2

/-- Sample `n` of the wave RAM (R183, 20_memory R65): high nibble for even `n`, low nibble for odd `n`. -/
def Memory.sample (m : Memory) (n : BitVec 5) : BitVec 4 :=
  let b := Memory.read m (0xFF30 + (n.toNat >>> 1))
  if n.toNat % 2 = 0 then b.extractLsb' 4 4 else b.extractLsb' 0 4

/-- The expire action of channel 3 (R183): the pointer advances before the fetch. -/
def Wave.nextSample (c : Wave) : Wave :=
  let n := c.sampleNibble + 1#5
  { c with sampleNibble := n, sampleBuffer := Memory.sample c.waveRam n }

/-- `ClockFrequency(3)` (R183). -/
def Wave.clockTimer (c : Wave) : Wave :=
  let k := countdown c.period (waveReload c.frequency)
  let c := { c with period := k.1 }
  if k.2 then c.nextSample else c

/-- `Trigger(3)` (R182): the sample buffer and the wave RAM stay. -/
def Wave.trigger (c : Wave) : Wave :=
  { c with
    toChannel := c.toChannel.trigger 256 (waveReload c.frequency)
    sampleNibble := 0#5 }

/-- The write of NR33 (R173). -/
def Wave.writeFrequencyLow (d : Byte) (c : Wave) : Wave := { c with frequency := frequencyLow c.frequency d }

/-- `FreqHiWrite(3, d)` (40_pulse R137). -/
def Wave.writeFrequencyHigh (d : Byte) (c : Wave) : Wave :=
  let c := { c with frequency := frequencyHigh c.frequency d, lengthEnabled := lengthEnableField d }
  if triggerField d then c.trigger else c

/-- `WaveDigital()` (R185). -/
def Wave.digital (p : Params) (c : Wave) : Nat :=
  c.sampleBuffer.toNat >>> (p.waveShiftTable[c.volumeCode.toNat]'c.volumeCode.isLt)

/-! ## The registers -/

/-- `WRITE NR30, d` (R170). -/
def execWriteNr30 (d : Byte) (s : State) : Host.Outcome State Fault Refusal :=
  perform (writeByte (encode (.writeNr30 d)) 0xFF1A#16 fun _ =>
    Apu.mapCh3 fun c => { c with toChannel := c.toChannel.writeDac (waveDacField d) }) s

/-- `READ NR30` (R176). -/
def execReadNr30 (s : State) : Host.Outcome State Fault Refusal :=
  perform (readByte 0xFF1A#16 fun a => naturalWavePower a.ch3) s

/-- `WRITE NR31, d` (R171). -/
def execWriteNr31 (d : Byte) (s : State) : Host.Outcome State Fault Refusal :=
  perform (writeByte (encode (.writeNr31 d)) 0xFF1B#16 fun _ =>
    Apu.mapCh3 fun c => { c with lengthCounter := lengthLoad256 d }) s

/-- `READ NR31` (R177). -/
def execReadNr31 (s : State) : Host.Outcome State Fault Refusal := perform (readByte 0xFF1B#16 naturalNone) s

/-- `WRITE NR32, d` (R172). -/
def execWriteNr32 (d : Byte) (s : State) : Host.Outcome State Fault Refusal :=
  perform (writeByte (encode (.writeNr32 d)) 0xFF1C#16 fun _ =>
    Apu.mapCh3 fun c => { c with volumeCode := volumeCodeField d }) s

/-- `READ NR32` (R178). -/
def execReadNr32 (s : State) : Host.Outcome State Fault Refusal :=
  perform (readByte 0xFF1C#16 fun a => naturalWaveVolume a.ch3) s

/-- `WRITE NR33, d` (R173). -/
def execWriteNr33 (d : Byte) (s : State) : Host.Outcome State Fault Refusal :=
  perform (writeByte (encode (.writeNr33 d)) 0xFF1D#16 fun _ => Apu.mapCh3 (Wave.writeFrequencyLow d)) s

/-- `READ NR33` (R179). -/
def execReadNr33 (s : State) : Host.Outcome State Fault Refusal := perform (readByte 0xFF1D#16 naturalNone) s

/-- `WRITE NR34, d` (R174). -/
def execWriteNr34 (d : Byte) (s : State) : Host.Outcome State Fault Refusal :=
  perform (writeByte (encode (.writeNr34 d)) 0xFF1E#16 fun _ => Apu.mapCh3 (Wave.writeFrequencyHigh d)) s

/-- `READ NR34` (R180). -/
def execReadNr34 (s : State) : Host.Outcome State Fault Refusal :=
  perform (readByte 0xFF1E#16 fun a => naturalControl a.ch3.toChannel) s

/-! ## The wave RAM -/

/-- `WRITE WAVEi, d` (R175): allowed at any time, the power gate does not cover it, and the sample buffer stays. -/
def execWriteWave (i : BitVec 4) (d : Byte) (s : State) : Host.Outcome State Fault Refusal :=
  perform (writeByte (encode (.writeWave i d)) (0xFF3#12 ++ i) fun _ =>
    Apu.mapCh3 fun c => { c with waveRam := Memory.write c.waveRam (waveAddr i) d }) s

/-- `READ WAVEi` (R184). -/
def execReadWave (i : BitVec 4) (s : State) : Host.Outcome State Fault Refusal :=
  perform (readByte (0xFF3#12 ++ i) fun a => Memory.read a.ch3.waveRam (waveAddr i)) s

end Sys2Proof.Machine
end

