-- ==== Sys2Proof/Machine/Mixer.lean ====
section
/-! DEFINITION. The mixer and the master control (44_mixer_control): the channel outputs, the stereo mix, SAMPLE, and the
meanings of READ and WRITE of NR50-NR52. The outputs are exact rationals (00_scope R12, 92_eei D13). -/

namespace Sys2Proof.Machine

/-! ## The output -/

/-- `DacMap(v)` (00_scope R14). -/
def dacMap (v : Nat) : Rat := (2 * (v : Rat) - 15) / 15

/-- `ChannelOut(c)` (R255): 0 unless the channel is enabled. -/
def channelOut (enabled : Bool) (digital : Nat) : Rat := if enabled then dacMap digital else 0

/-- One term of a side sum (R257): a channel not routed to the side adds nothing. -/
def routed (flag : Bool) (out : Rat) : Rat := if flag then out else 0

/-- `SumL` or `SumR` (R257), by the side's routing flags. -/
def Apu.sideSum (p : Params) (r : Routing) (a : Apu) : Rat :=
  routed r.ch1 (channelOut a.ch1.enabled (a.ch1.digital p))
    + routed r.ch2 (channelOut a.ch2.enabled (a.ch2.digital p))
    + routed r.ch3 (channelOut a.ch3.enabled (a.ch3.digital p))
    + routed r.ch4 (channelOut a.ch4.enabled a.ch4.digital)

/-- The master scale (R258). -/
def masterScale (sum : Rat) (code : BitVec 3) : Rat := sum * ((code.toNat : Rat) + 1) / 8

/-- `OutL` (R258). -/
def Apu.outLeft (p : Params) (a : Apu) : Rat := masterScale (a.sideSum p a.mix.routeLeft) a.mix.leftVolume

/-- `OutR` (R258). -/
def Apu.outRight (p : Params) (a : Apu) : Rat := masterScale (a.sideSum p a.mix.routeRight) a.mix.rightVolume

/-- `SAMPLE` (R259): the host gets the pair; no block state changes. -/
def execSample (s : State) : Host.Outcome State Fault Refusal :=
  perform (fun s => deliver (.pair (s.apu.outLeft s.params) (s.apu.outRight s.params)) s) s

/-! ## The registers -/

/-- The write of NR50 (R250). -/
def Mixer.writeVolume (d : Byte) (m : Mixer) : Mixer :=
  { m with
    vinLeft := vinLeftField d
    leftVolume := leftVolumeField d
    vinRight := vinRightField d
    rightVolume := rightVolumeField d }

/-- The write of NR51 (R252). -/
def Mixer.writeRouting (d : Byte) (m : Mixer) : Mixer :=
  { m with routeLeft := routeLeftField d, routeRight := routeRightField d }

/-- `WRITE NR50, d` (R250). -/
def execWriteNr50 (d : Byte) (s : State) : Host.Outcome State Fault Refusal :=
  perform (writeByte (encode (.writeNr50 d)) 0xFF24#16 fun _ => Apu.mapMix (Mixer.writeVolume d)) s

/-- `READ NR50` (R251). -/
def execReadNr50 (s : State) : Host.Outcome State Fault Refusal :=
  perform (readByte 0xFF24#16 fun a => naturalMasterVolume a.mix) s

/-- `WRITE NR51, d` (R252). -/
def execWriteNr51 (d : Byte) (s : State) : Host.Outcome State Fault Refusal :=
  perform (writeByte (encode (.writeNr51 d)) 0xFF25#16 fun _ => Apu.mapMix (Mixer.writeRouting d)) s

/-- `READ NR51` (R253). -/
def execReadNr51 (s : State) : Host.Outcome State Fault Refusal :=
  perform (readByte 0xFF25#16 fun a => naturalRouting a.mix) s

/-- `WRITE NR52, d` (R254): under `POWER_OFF_POLICY = refuse` a power-off write is refused (R261, R284). -/
def execWriteNr52 (d : Byte) (s : State) : Host.Outcome State Fault Refusal :=
  perform (writeByte (encode (.writeNr52 d)) 0xFF26#16 fun p =>
    if p.powerOff = .refuse ∧ powerField d = false then Apu.refuse (.powerOffUnmodelled (encode (.writeNr52 d)))
    else Apu.setPower (powerField d)) s

/-- `READ NR52` (R256). -/
def execReadNr52 (s : State) : Host.Outcome State Fault Refusal := perform (readByte 0xFF26#16 naturalStatus) s

end Sys2Proof.Machine
end

