-- ==== Sys2Proof/Machine/Sequencer.lean ====
section
/-! DEFINITION. The frame sequencer and STEP (43_frame_sequencer). -/

namespace Sys2Proof.Machine

/-- The four frequency timers of one STEP (R233). -/
def Apu.clockTimers (p : Params) (a : Apu) : Apu :=
  { a with
    ch1 := a.ch1.clockTimer
    ch2 := a.ch2.clockTimer
    ch3 := a.ch3.clockTimer
    ch4 := a.ch4.clockTimer p }

/-- The length tick: `ClockLength(c)` for c = 1..4 (R232). -/
def Apu.clockLengths (a : Apu) : Apu :=
  { a with
    ch1 := { a.ch1 with toChannel := a.ch1.toChannel.clockLength }
    ch2 := { a.ch2 with toChannel := a.ch2.toChannel.clockLength }
    ch3 := { a.ch3 with toChannel := a.ch3.toChannel.clockLength }
    ch4 := { a.ch4 with toChannel := a.ch4.toChannel.clockLength } }

/-- The envelope tick: `ClockEnvelope(c)` for c = 1, 2, 4 (R232). -/
def Apu.clockEnvelopes (p : Params) (a : Apu) : Apu :=
  { a with
    ch1 := { a.ch1 with toEnvelope := a.ch1.toEnvelope.clock p }
    ch2 := { a.ch2 with toEnvelope := a.ch2.toEnvelope.clock p }
    ch4 := { a.ch4 with toEnvelope := a.ch4.toEnvelope.clock p } }

/-- `Tick(t)` (R232): length, then sweep, then envelope. A sweep that faults is the last thing its STEP does, as R233
asks: the sweep's frames, 2 and 6, carry no envelope tick. -/
def Apu.tick (p : Params) (t : BitVec 3) (a : Apu) : Apu :=
  let a := if t.toNat % 2 = 0 then a.clockLengths else a
  let a := if t.toNat % 4 = 2 then a.clockSweep p else a
  if t.toNat = 7 then a.clockEnvelopes p else a

/-- `FsClock()` (R231): the tick carries the frame held before the advance. -/
def Apu.fsClock (p : Params) (a : Apu) : Apu :=
  let k := countdown a.fs.period 8192
  if k.2 then (a.setFs ⟨k.1, a.fs.frame + 1#3⟩).tick p a.fs.frame
  else a.setFs ⟨k.1, a.fs.frame⟩

/-- One clock cycle (R233): the timers, then the frame sequencer, whatever the flags and the power bit hold. -/
def Apu.cycle (p : Params) (a : Apu) : Apu := (a.clockTimers p).fsClock p

/-- `STEP` (R233). -/
def execStep (s : State) : Host.Outcome State Fault Refusal :=
  perform (fun s => s.onApu Apu.cycle) s

end Sys2Proof.Machine
end

