-- ==== Sys2Proof/Machine/Window.lean ====
section
/-! DEFINITION. The addresses that hold no register: the unused addresses of the window (44_mixer_control R262, R263), and the
addresses outside it (60_exceptions R281). -/

namespace Sys2Proof.Machine

/-- `WRITE 0xFF15, d` (R262): no state changes; the power gate covers the address (R261). -/
def execWriteUnusedFf15 (d : Byte) (s : State) : Host.Outcome State Fault Refusal :=
  perform (writeByte (encode (.writeUnusedFf15 d)) 0xFF15#16 fun _ a => a) s

/-- `READ 0xFF15` (R263). -/
def execReadUnusedFf15 (s : State) : Host.Outcome State Fault Refusal := perform (readByte 0xFF15#16 naturalNone) s

/-- `WRITE 0xFF1F, d` (R262): no state changes; the power gate covers the address (R261). -/
def execWriteUnusedFf1f (d : Byte) (s : State) : Host.Outcome State Fault Refusal :=
  perform (writeByte (encode (.writeUnusedFf1f d)) 0xFF1F#16 fun _ a => a) s

/-- `READ 0xFF1F` (R263). -/
def execReadUnusedFf1f (s : State) : Host.Outcome State Fault Refusal := perform (readByte 0xFF1F#16 naturalNone) s

/-- `WRITE 0xFF27, d` (R262). -/
def execWriteUnusedFf27 (d : Byte) (s : State) : Host.Outcome State Fault Refusal :=
  perform (writeByte (encode (.writeUnusedFf27 d)) 0xFF27#16 fun _ a => a) s

/-- `READ 0xFF27` (R263). -/
def execReadUnusedFf27 (s : State) : Host.Outcome State Fault Refusal := perform (readByte 0xFF27#16 naturalNone) s

/-- `WRITE 0xFF28 + j, d` (R262). -/
def execWriteUnusedFf28To2f (j : BitVec 3) (d : Byte) (s : State) : Host.Outcome State Fault Refusal :=
  perform (writeByte (encode (.writeUnusedFf28To2f j d)) (0x1FE5#13 ++ j) fun _ a => a) s

/-- `READ 0xFF28 + j` (R263). -/
def execReadUnusedFf28To2f (j : BitVec 3) (s : State) : Host.Outcome State Fault Refusal :=
  perform (readByte (0x1FE5#13 ++ j) naturalNone) s

/-- A WRITE outside the window (R281): under `ignore` no state changes. -/
def execWriteOutOfWindow (a : Addr) (_d : Byte) (s : State) : Host.Outcome State Fault Refusal :=
  perform (outOfWindow a id) s

/-- A READ outside the window (R281): under `ignore` the host gets a byte drawn freely. -/
def execReadOutOfWindow (a : Addr) (s : State) : Host.Outcome State Fault Refusal :=
  perform (outOfWindow a deliverFree) s

end Sys2Proof.Machine
end

