-- ==== Sys2Proof/Machine/Dispatch.lean ====
section
/-! DEFINITION. The dispatch of every operation to its meaning, one arm a constructor. -/

namespace Sys2Proof.Machine

def exec (i : Instr) (s : State) : Host.Outcome State Fault Refusal :=
  match i with
  | .writeNr10 d => Sys2Proof.Machine.execWriteNr10 d s
  | .readNr10 => Sys2Proof.Machine.execReadNr10 s
  | .writeNr11 d => Sys2Proof.Machine.execWriteNr11 d s
  | .readNr11 => Sys2Proof.Machine.execReadNr11 s
  | .writeNr12 d => Sys2Proof.Machine.execWriteNr12 d s
  | .readNr12 => Sys2Proof.Machine.execReadNr12 s
  | .writeNr13 d => Sys2Proof.Machine.execWriteNr13 d s
  | .readNr13 => Sys2Proof.Machine.execReadNr13 s
  | .writeNr14 d => Sys2Proof.Machine.execWriteNr14 d s
  | .readNr14 => Sys2Proof.Machine.execReadNr14 s
  | .writeNr21 d => Sys2Proof.Machine.execWriteNr21 d s
  | .readNr21 => Sys2Proof.Machine.execReadNr21 s
  | .writeNr22 d => Sys2Proof.Machine.execWriteNr22 d s
  | .readNr22 => Sys2Proof.Machine.execReadNr22 s
  | .writeNr23 d => Sys2Proof.Machine.execWriteNr23 d s
  | .readNr23 => Sys2Proof.Machine.execReadNr23 s
  | .writeNr24 d => Sys2Proof.Machine.execWriteNr24 d s
  | .readNr24 => Sys2Proof.Machine.execReadNr24 s
  | .writeNr30 d => Sys2Proof.Machine.execWriteNr30 d s
  | .readNr30 => Sys2Proof.Machine.execReadNr30 s
  | .writeNr31 d => Sys2Proof.Machine.execWriteNr31 d s
  | .readNr31 => Sys2Proof.Machine.execReadNr31 s
  | .writeNr32 d => Sys2Proof.Machine.execWriteNr32 d s
  | .readNr32 => Sys2Proof.Machine.execReadNr32 s
  | .writeNr33 d => Sys2Proof.Machine.execWriteNr33 d s
  | .readNr33 => Sys2Proof.Machine.execReadNr33 s
  | .writeNr34 d => Sys2Proof.Machine.execWriteNr34 d s
  | .readNr34 => Sys2Proof.Machine.execReadNr34 s
  | .writeNr41 d => Sys2Proof.Machine.execWriteNr41 d s
  | .readNr41 => Sys2Proof.Machine.execReadNr41 s
  | .writeNr42 d => Sys2Proof.Machine.execWriteNr42 d s
  | .readNr42 => Sys2Proof.Machine.execReadNr42 s
  | .writeNr43 d => Sys2Proof.Machine.execWriteNr43 d s
  | .readNr43 => Sys2Proof.Machine.execReadNr43 s
  | .writeNr44 d => Sys2Proof.Machine.execWriteNr44 d s
  | .readNr44 => Sys2Proof.Machine.execReadNr44 s
  | .writeNr50 d => Sys2Proof.Machine.execWriteNr50 d s
  | .readNr50 => Sys2Proof.Machine.execReadNr50 s
  | .writeNr51 d => Sys2Proof.Machine.execWriteNr51 d s
  | .readNr51 => Sys2Proof.Machine.execReadNr51 s
  | .writeNr52 d => Sys2Proof.Machine.execWriteNr52 d s
  | .readNr52 => Sys2Proof.Machine.execReadNr52 s
  | .writeWave k d => Sys2Proof.Machine.execWriteWave k d s
  | .readWave k => Sys2Proof.Machine.execReadWave k s
  | .writeUnusedFf15 d => Sys2Proof.Machine.execWriteUnusedFf15 d s
  | .readUnusedFf15 => Sys2Proof.Machine.execReadUnusedFf15 s
  | .writeUnusedFf1f d => Sys2Proof.Machine.execWriteUnusedFf1f d s
  | .readUnusedFf1f => Sys2Proof.Machine.execReadUnusedFf1f s
  | .writeUnusedFf27 d => Sys2Proof.Machine.execWriteUnusedFf27 d s
  | .readUnusedFf27 => Sys2Proof.Machine.execReadUnusedFf27 s
  | .writeUnusedFf28To2f j d => Sys2Proof.Machine.execWriteUnusedFf28To2f j d s
  | .readUnusedFf28To2f j => Sys2Proof.Machine.execReadUnusedFf28To2f j s
  | .writeOutOfWindow a d => Sys2Proof.Machine.execWriteOutOfWindow a d s
  | .readOutOfWindow a => Sys2Proof.Machine.execReadOutOfWindow a s
  | .step => Sys2Proof.Machine.execStep s
  | .sample => Sys2Proof.Machine.execSample s

end Sys2Proof.Machine
end

