-- ==== Sys2Proof/Machine/Issue.lean ====
section
/-! DEFINITION. How the host issues one operation: the word at its position is decoded and executed, and the host moves on
(10_state R21, 30_encoding R84, 60_exceptions R286). -/

namespace Sys2Proof.Machine

/-- The host moves to its next operation where the one issued gave a next state. -/
def advanceOutcome : Host.Outcome State Fault Refusal → Host.Outcome State Fault Refusal
  | .next s => .next (advance s)
  | .fault r => .fault r
  | .refused r => .refused r

/-- Issue the operation word `w`: an invalid word is refused before anything else (R283, R286). -/
def issueWord (w : Word) (s : State) : Host.Outcome State Fault Refusal :=
  match decode w with
  | .error _ => perform (fun s => s.onApu fun _ => Apu.refuse (.reservedOperationBits w)) s
  | .ok i => advanceOutcome (exec i s)

/-- Issue the host's next operation. In a marked state there is no step (R280). Where the host has no further operation
the block stands still (log entry 5). -/
def issueNext (s : State) : Host.Outcome State Fault Refusal :=
  match settle s with
  | .next s =>
    match fetchWord s with
    | some w => issueWord w s
    | none => .next s
  | .fault r => .fault r
  | .refused r => .refused r

end Sys2Proof.Machine
end

