-- ==== Sys2Proof/Machine/Step.lean ====
section
/-! DEFINITION. The step of the machine, and how an operation word is placed where the next step issues it. -/

namespace Sys2Proof.Machine

/-- One step: the host issues its next operation (10_state R21). -/
def step (s : State) : Host.Outcome State Fault Refusal := issueNext s

/-- `s` with the operation word whose bits are `w`, `nbits` of them, as the one the host issues next (log entry 1). -/
def State.withFetchWord (s : State) (nbits w : Nat) : State := placeWord (BitVec.ofNat 32 (w % 2 ^ nbits)) s

end Sys2Proof.Machine
end

