-- ==== Sys2Proof/Machine/Assembler.lean ====
section
/-! DEFINITION. The assembler of 30_encoding R94 and R95: lines, their operation words, the two pseudo-operations, and the
text of a line. Letter case, blanks, blank lines and the notation of numbers other than `<imm8>`: log entry 9. -/

namespace Sys2Proof.Machine

/-! ## Lines and their words -/

/-- One line of a program (R94, R95), its operands as numbers. -/
inductive AsmLine where
  | read (a : Addr)
  | write (a : Addr) (imm : Nat)
  /-- `STEP <n>`, of which `STEP` is the case n = 1. -/
  | step (n : Nat)
  | sample
  | writeWave (bytes : List Nat)
  deriving DecidableEq, Repr

/-- An immediate, 0..255: "A value outside 0..255 is an assembly error" (R94). -/
def immediate (n : Nat) : Option Byte := if n ≤ 255 then some (BitVec.ofNat 8 n) else none

/-- The immediates of a list, if each is one. -/
def immediates : List Nat → Option (List Byte)
  | [] => some []
  | n :: ns =>
    match immediate n, immediates ns with
    | some b, some bs => some (b :: bs)
    | _, _ => none

/-- The words `WRITE WAVEi, b` of the bytes of a list, from byte `i` on (R95). -/
def waveWords (i : Nat) : List Byte → List Word
  | [] => []
  | b :: bs => mkWord 0b01#2 0#6 (BitVec.ofNat 16 (0xFF30 + i)) b :: waveWords (i + 1) bs

/-- The words a line assembles to, or no words: an assembly error (R94, R95). -/
def assembleLine : AsmLine → Option (List Word)
  | .read a => some [mkWord 0b00#2 0#6 a 0#8]
  | .write a imm => (immediate imm).map fun d => [mkWord 0b01#2 0#6 a d]
  | .step n => if n = 0 then none else some (List.replicate n (mkWord 0b10#2 0#6 0#16 0#8))
  | .sample => some [mkWord 0b11#2 0#6 0#16 0#8]
  | .writeWave bytes => if bytes.length = 16 then (immediates bytes).map (waveWords 0) else none

/-! ## Text -/

/-- The value of a digit in base `base`. -/
def digitValue (base : Nat) (c : Char) : Option Nat :=
  let n := c.toNat
  let v :=
    if 48 ≤ n ∧ n ≤ 57 then n - 48
    else if 65 ≤ n ∧ n ≤ 70 then n - 55
    else if 97 ≤ n ∧ n ≤ 102 then n - 87
    else base
  if v < base then some v else none

/-- The value of a list of digits, read after `acc`. -/
def digitsValue (base : Nat) : Nat → List Char → Option Nat
  | acc, [] => some acc
  | acc, c :: cs =>
    match digitValue base c with
    | some v => digitsValue base (acc * base + v) cs
    | none => none

/-- A decimal or `0x` hexadecimal number (R94). -/
def numberValue : List Char → Option Nat
  | [] => none
  | ['0', 'x'] => none
  | '0' :: 'x' :: cs => digitsValue 16 0 cs
  | cs => digitsValue 10 0 cs

/-- The address of a register label NR<channel><index> (00_scope R15; 10_state R40-R61). -/
def labelAddress (channel index : Nat) : Option Addr :=
  if channel = 1 ∧ index ≤ 4 then some (BitVec.ofNat 16 (0xFF10 + index))
  else if channel = 2 ∧ 1 ≤ index ∧ index ≤ 4 then some (BitVec.ofNat 16 (0xFF15 + index))
  else if channel = 3 ∧ index ≤ 4 then some (BitVec.ofNat 16 (0xFF1A + index))
  else if channel = 4 ∧ 1 ≤ index ∧ index ≤ 4 then some (BitVec.ofNat 16 (0xFF1F + index))
  else if channel = 5 ∧ index ≤ 2 then some (BitVec.ofNat 16 (0xFF24 + index))
  else none

/-- `<reg>`: a label, `WAVE<i>` with i in 0..15, or a 16-bit hexadecimal address (R94). DESIGN CHOICE (log entry 9): `i`
is decimal, and the address is written with `0x`. -/
def registerAddress : List Char → Option Addr
  | ['N', 'R', c, i] =>
    match digitValue 10 c, digitValue 10 i with
    | some channel, some index => labelAddress channel index
    | _, _ => none
  | 'W' :: 'A' :: 'V' :: 'E' :: c :: cs =>
    match digitsValue 10 0 (c :: cs) with
    | some i => if i ≤ 15 then some (BitVec.ofNat 16 (0xFF30 + i)) else none
    | none => none
  | '0' :: 'x' :: c :: cs =>
    match digitsValue 16 0 (c :: cs) with
    | some a => if a ≤ 0xFFFF then some (BitVec.ofNat 16 a) else none
    | none => none
  | _ => none

/-- The tokens of a line, `acc` the reversed start of the current one: blanks separate, a comma is a token, and `;`
starts a comment (R94). -/
def tokens : List Char → List Char → List (List Char)
  | acc, [] => if acc.isEmpty then [] else [acc.reverse]
  | acc, c :: cs =>
    let here := if acc.isEmpty then [] else [acc.reverse]
    if c = ';' then here
    else if c = ' ' ∨ c = '\t' then here ++ tokens [] cs
    else if c = ',' then here ++ [','] :: tokens [] cs
    else tokens (c :: acc) cs

/-- A list of numbers with commas between. DESIGN CHOICE (log entry 9): R95 does not say how a byte of `WRITEWAVE` is
written, and each is read as R94 writes `<imm8>`. -/
def numberList : List (List Char) → Option (List Nat)
  | [t] => (numberValue t).map fun n => [n]
  | t :: [','] :: ts =>
    match numberValue t, numberList ts with
    | some n, some ns => some (n :: ns)
    | _, _ => none
  | _ => none

/-- The line that tokens spell: none for a blank line or a comment. DESIGN CHOICE (log entry 9): R95 does not say how the
count of `STEP <n>` is written, and it is read as R94 writes `<imm8>`, in decimal or in `0x` hexadecimal. -/
def parseTokens : List (List Char) → Option (List AsmLine)
  | [] => some []
  | [['R', 'E', 'A', 'D'], r] => (registerAddress r).map fun a => [.read a]
  | [['W', 'R', 'I', 'T', 'E'], r, [','], v] =>
    match registerAddress r, numberValue v with
    | some a, some n => some [.write a n]
    | _, _ => none
  | [['S', 'T', 'E', 'P']] => some [.step 1]
  | [['S', 'T', 'E', 'P'], v] => (numberValue v).map fun n => [.step n]
  | [['S', 'A', 'M', 'P', 'L', 'E']] => some [.sample]
  | ['W', 'R', 'I', 'T', 'E', 'W', 'A', 'V', 'E'] :: ts => (numberList ts).map fun ns => [.writeWave ns]
  | _ => none

/-- The words of a list of lines. -/
def assembleLines : List AsmLine → Option (List Word)
  | [] => some []
  | l :: ls =>
    match assembleLine l, assembleLines ls with
    | some ws, some vs => some (ws ++ vs)
    | _, _ => none

/-- The words of one line of text (R94). -/
def assembleText (line : List Char) : Option (List Word) :=
  match parseTokens (tokens [] line) with
  | some ls => assembleLines ls
  | none => none

end Sys2Proof.Machine
end

