-- ==== Sys2Proof/Safety.lean ====
section
/-! DEFINITION. What a safe run is, in the terms the statements use: a state with no stop recorded, the conditions under which
a WRITE is accepted, when a unit is due in a STEP, and the machine's invariant. -/

namespace Sys2Proof.Machine

/-! ## The spec's notation for a data byte -/

/-- `d[hi:lo]`: "the unsigned value of bits hi down to lo inclusive" (00_scope R10). -/
def bits (d : Byte) (hi lo : Nat) : Nat := d.toNat / 2 ^ lo % 2 ^ (hi - lo + 1)

/-- `d[i] = 1` (00_scope R10). -/
def bit (d : Byte) (i : Nat) : Bool := d.toNat / 2 ^ i % 2 == 1

/-! ## Stops and acceptance -/

/-- No fault and no refusal is recorded (60_exceptions R280). -/
abbrev State.Running (s : State) : Prop := s.apu.fault = none ∧ s.apu.refusal = none

/-- The power gate is open: every WRITE of the window but a power-off write of NR52 is accepted (R261, R284). -/
abbrev State.AcceptsWrites (s : State) : Prop := s.params.powerOff = .storeOnly ∨ s.apu.power = true

/-- The operation is a READ (30_encoding R81). -/
abbrev IsRead (i : Instr) : Prop := opField (encode i) = 0b00#2

/-- The operation is a WRITE (30_encoding R82). -/
abbrev IsWrite (i : Instr) : Prop := opField (encode i) = 0b01#2

/-- The operation is a WRITE that triggers a channel (20_memory R69(d)). -/
def triggersChannel : Instr → Bool
  | .writeNr14 d => d.getLsbD 7
  | .writeNr24 d => d.getLsbD 7
  | .writeNr34 d => d.getLsbD 7
  | .writeNr44 d => d.getLsbD 7
  | _ => false

/-- From `s` to `t` the host was handed the byte `b` and nothing else changed. -/
abbrev Answered (s t : State) (b : Byte) : Prop :=
  t = { s with host := { s.host with replies := .byte b :: s.host.replies } }

/-- The READ `i` completes in `s` and hands the host `b`, changing nothing else. -/
abbrev Answers (i : Instr) (s : State) (b : Byte) : Prop := ∃ t, exec i s = .next t ∧ Answered s t b

/-- After the WRITE `w` in `s`, the READ `r` hands the host `b`. -/
abbrev WriteThenRead (w r : Instr) (s : State) (b : Byte) : Prop := ∃ t, exec w s = .next t ∧ Answers r t b

/-- `n` STEP operations in a row, if each gives a next state. -/
def runSteps : Nat → State → Option State
  | 0, s => some s
  | n + 1, s =>
    match exec .step s with
    | .next t => runSteps n t
    | .fault _ => none
    | .refused _ => none

/-! ## What is due in a STEP -/

/-- This STEP's frame-sequencer divider expires (43_frame_sequencer R231). -/
abbrev State.TickDue (s : State) : Prop := s.apu.fs.period ≤ 1

/-- This STEP carries a length tick (R232). -/
abbrev State.LengthDue (s : State) : Prop := s.TickDue ∧ s.apu.fs.frame.toNat % 2 = 0

/-- This STEP's length tick clocks the channel's counter (40_pulse R132). -/
abbrev State.LengthCounts (s : State) (c : Channel) : Prop :=
  s.LengthDue ∧ c.lengthEnabled = true ∧ 0 < c.lengthCounter

/-- This STEP carries a sweep tick that clocks the sweep counter (R232, 40_pulse R134). -/
abbrev State.SweepCounts (s : State) : Prop :=
  s.TickDue ∧ s.apu.fs.frame.toNat % 4 = 2 ∧ s.apu.sweep.sweepTime ≠ 0#3

/-- This STEP updates the frequency of channel 1 (R134). -/
abbrev State.SweepDue (s : State) : Prop := s.SweepCounts ∧ s.apu.sweep.sweepCounter ≤ 1

/-- The frequency the sweep would compute (R134). -/
def State.sweepSum (s : State) : Nat :=
  let f := s.apu.ch1.frequency.toNat
  let delta := f / 2 ^ s.apu.sweep.sweepShifts.toNat
  if s.apu.sweep.sweepDirection then f - delta else f + delta

/-- This STEP computes a frequency above 2047 (00_scope R17). -/
abbrev State.SweepOverflows (s : State) : Prop := s.SweepDue ∧ 2047 < s.sweepSum

/-- This STEP carries an envelope tick (R232). -/
abbrev State.EnvelopeDue (s : State) : Prop := s.TickDue ∧ s.apu.fs.frame = 7#3

/-! ## The invariant -/

/-- The largest `Reload(4)` under `p`: with the default table 112 × 2^15 = 3670016 (10_state R22, 30_encoding R89). -/
def noiseReloadMax (p : Params) : Nat := (p.noiseDivisorTable.toList.foldr max 0) <<< 15

/-- `!dac_enabled ⇒ !enabled` (10_state R32). -/
abbrev Channel.DacGates (c : Channel) : Prop := c.dacEnabled = false → c.enabled = false

/-- The invariant of a channel's common fields (R22, R32, R33). -/
abbrev Channel.Inv (lenMax periodMax : Nat) (c : Channel) : Prop :=
  c.DacGates ∧ c.lengthCounter ≤ lenMax ∧ c.period ≤ periodMax

/-- The invariant of an envelope (R25, R34). -/
abbrev Envelope.Inv (p : Params) (e : Envelope) : Prop :=
  e.volume ≤ 15 ∧ e.volumeCounter ≤ 7 ∧ (p.envFreezeLatch = false → e.envFrozen = false)

/-- The invariant of the block (10_state R22-R34): every counter in its range, the DAC gate, the divider never 0, and
the wave RAM in canonical form within its sixteen addresses. -/
abbrev Apu.Inv (p : Params) (a : Apu) : Prop :=
  (a.ch1.toChannel.Inv 64 8192 ∧ a.ch1.toEnvelope.Inv p)
  ∧ (a.ch2.toChannel.Inv 64 8192 ∧ a.ch2.toEnvelope.Inv p)
  ∧ (a.ch3.toChannel.Inv 256 4096 ∧ Memory.wf a.ch3.waveRam = true ∧ Memory.inWaveRam a.ch3.waveRam = true)
  ∧ (a.ch4.toChannel.Inv 64 (noiseReloadMax p) ∧ a.ch4.toEnvelope.Inv p)
  ∧ a.sweep.sweepCounter ≤ 7
  ∧ (1 ≤ a.fs.period ∧ a.fs.period ≤ 8192)

/-- The invariant of the machine: the block's, and the host's position within its program. -/
abbrev State.Inv (s : State) : Prop := s.apu.Inv s.params ∧ s.host.position ≤ s.host.program.length

/-- 10_state R32 for the four channels. -/
abbrev State.DacGates (s : State) : Prop :=
  s.apu.ch1.toChannel.DacGates ∧ s.apu.ch2.toChannel.DacGates ∧ s.apu.ch3.toChannel.DacGates
  ∧ s.apu.ch4.toChannel.DacGates

/-- 10_state R33 for the four channels. -/
abbrev State.LengthsInRange (s : State) : Prop :=
  s.apu.ch1.lengthCounter ≤ 64 ∧ s.apu.ch2.lengthCounter ≤ 64 ∧ s.apu.ch3.lengthCounter ≤ 256
  ∧ s.apu.ch4.lengthCounter ≤ 64

/-- 10_state R34 for the three envelopes. -/
abbrev State.VolumesInRange (s : State) : Prop :=
  s.apu.ch1.volume ≤ 15 ∧ s.apu.ch2.volume ≤ 15 ∧ s.apu.ch4.volume ≤ 15

end Sys2Proof.Machine
end

