-- ==== Sys2Proof/Certificates/Slice0/Obligations.lean ====
section
/-! DEFINITION. The statements about the machine, each from the numbered rules of spec/ its docstring names. Data-byte fields
are written in the spec's own notation (`bits`, `bit`: 00_scope R10), not with the model's field functions. -/

open Sys2Proof Sys2Proof.Machine

/-! ## Encoding -/

/-- 30_encoding R80, R84(c), R90: decoding the word of a well-formed operation gives the operation, at every operand
value. The word layout is the spec's own choice D1. -/
def Obligations.DecodeInvertsEncode : Prop := ∀ i : Instr, i.WellFormed → decode (encode i) = .ok i

/-- 30_encoding R80, R84: a word the decoder accepts is the word of the operation it gives, which is well formed; so
no two words have one meaning and no bit of an accepted word is dropped. The word layout is the spec's own choice
D1. -/
def Obligations.EncodeInvertsDecode : Prop :=
  ∀ (w : Word) (i : Instr), decode w = .ok i → i.WellFormed ∧ encode i = w

/-- 30_encoding R84: which words are invalid, out of window and valid, in the terms of the word's own bits. The
verdicts are the spec's own choice (D1, D3). -/
def Obligations.VerdictsPartitionTheWords : Prop :=
  ∀ w : Word,
    let op := w.toNat / 2 ^ 30
    let z := w.toNat / 2 ^ 24 % 64
    let a := w.toNat / 2 ^ 8 % 65536
    let d := w.toNat % 256
    let bad := z ≠ 0 ∨ (op = 0 ∧ d ≠ 0) ∨ (2 ≤ op ∧ (a ≠ 0 ∨ d ≠ 0))
    let outside := op ≤ 1 ∧ (a < 0xFF10 ∨ 0xFF3F < a)
    ((∃ e, verdict w = .invalid e) ↔ bad)
      ∧ ((∃ i, verdict w = .outOfWindow i) ↔ ¬ bad ∧ outside)
      ∧ ((∃ i, verdict w = .valid i) ↔ ¬ bad ∧ ¬ outside)
      ∧ ∀ i, verdict w = .valid i ∨ verdict w = .outOfWindow i → encode i = w

/-- 30_encoding R96, and words of 95_test_vectors for the other families. The spec derives the list from its own
word layout (D1). -/
def Obligations.WorkedEncodingsDecode : Prop :=
  decode 0x40FF12F0#32 = .ok (.writeNr12 0xF0#8)
    ∧ decode 0x00FF2600#32 = .ok .readNr52
    ∧ decode 0x40FF35AB#32 = .ok (.writeWave 5#4 0xAB#8)
    ∧ decode 0x80000000#32 = .ok .step
    ∧ decode 0xC0000000#32 = .ok .sample
    ∧ decode 0x01FF1200#32 = .error .reservedNonzero
    ∧ decode 0x00FF1201#32 = .error .readWithData
    ∧ verdict 0x40FF4000#32 = .outOfWindow (.writeOutOfWindow 0xFF40#16 0#8)
    ∧ decode 0x40FF1EC7#32 = .ok (.writeNr34 0xC7#8)
    ∧ decode 0x40FF2380#32 = .ok (.writeNr44 0x80#8)
    ∧ decode 0x40FF1512#32 = .ok (.writeUnusedFf15 0x12#8)
    ∧ decode 0x00FF2A00#32 = .ok (.readUnusedFf28To2f 2#3)

/-- 30_encoding R94, R95: a READ or WRITE line of any address assembles to the word that holds its address and its
immediate, and SAMPLE to its word, so every operation has a line; `STEP n` gives n STEP words and no line for n = 0; an
immediate above 255 is an assembly error; `WRITEWAVE` gives the sixteen WRITEs of the wave RAM in order; and every
register label names its address. The syntax is the spec's own choice (D2); letter case, blanks and the notation
of a count or an index are the model's (log entry 9). -/
def Obligations.AssemblerSpellsTheOperations : Prop :=
  (∀ a : Addr, assembleLine (.read a) = some [BitVec.ofNat 32 (256 * a.toNat)])
    ∧ (∀ (a : Addr) (n : Nat), n ≤ 255 →
      assembleLine (.write a n) = some [BitVec.ofNat 32 (0x40000000 + 256 * a.toNat + n)])
    ∧ assembleLine .sample = some [0xC0000000#32]
    ∧ (∀ i : Instr, i.WellFormed → ∃ line, assembleLine line = some [encode i])
    ∧ (∀ n : Nat, assembleLine (.step n) = if n = 0 then none else some (List.replicate n (encode .step)))
    ∧ (∀ (a : Addr) (n : Nat), 255 < n → assembleLine (.write a n) = none)
    ∧ (∀ b : Vector Byte 16, assembleLine (.writeWave (b.toList.map BitVec.toNat))
        = some (List.ofFn fun i : Fin 16 => encode (.writeWave (BitVec.ofNat 4 i.val) b[i])))
    ∧ assembleText "WRITE NR12, 0xF0 ; envelope".toList = some [0x40FF12F0#32]
    ∧ assembleText "READ NR52".toList = some [0x00FF2600#32]
    ∧ assembleText "WRITE WAVE5, 171".toList = some [0x40FF35AB#32]
    ∧ assembleText "READ 0xFF2A".toList = some [0x00FF2A00#32]
    ∧ assembleText "STEP 2".toList = some [0x80000000#32, 0x80000000#32]
    ∧ assembleText "SAMPLE".toList = some [0xC0000000#32]
    ∧ ∀ r ∈ ([("NR10", 0x10), ("NR11", 0x11), ("NR12", 0x12), ("NR13", 0x13), ("NR14", 0x14),
        ("NR21", 0x16), ("NR22", 0x17), ("NR23", 0x18), ("NR24", 0x19),
        ("NR30", 0x1A), ("NR31", 0x1B), ("NR32", 0x1C), ("NR33", 0x1D), ("NR34", 0x1E),
        ("NR41", 0x20), ("NR42", 0x21), ("NR43", 0x22), ("NR44", 0x23), ("NR50", 0x24), ("NR51", 0x25), ("NR52", 0x26),
        ("WAVE0", 0x30), ("WAVE1", 0x31), ("WAVE2", 0x32), ("WAVE3", 0x33), ("WAVE4", 0x34), ("WAVE5", 0x35),
        ("WAVE6", 0x36), ("WAVE7", 0x37), ("WAVE8", 0x38), ("WAVE9", 0x39), ("WAVE10", 0x3A), ("WAVE11", 0x3B),
        ("WAVE12", 0x3C), ("WAVE13", 0x3D), ("WAVE14", 0x3E), ("WAVE15", 0x3F)] : List (String × Nat)),
        registerAddress r.1.toList = some (BitVec.ofNat 16 (0xFF00 + r.2))

/-! ## The step -/

/-- 10_state R21, 30_encoding R84: when the word at the host's position decodes to `i`, the step is `exec i`, and
the host moves to its next operation after a next state. The host's port in the state is the model's (log entry 1). -/
def Obligations.StepRunsTheDecodedOperation : Prop :=
  ∀ (s : State) (w : Word) (i : Instr), s.Running → s.host.program[s.host.position]? = some w → decode w = .ok i →
    step s =
      match exec i s with
      | .next t => .next { t with host := { t.host with position := t.host.position + 1 } }
      | .fault r => .fault r
      | .refused r => .refused r

/-- 60_exceptions R283: an invalid operation word is refused, and the refusal records the word. The refusal is the
spec's own choice (D1). -/
def Obligations.InvalidWordIsRefused : Prop :=
  ∀ (s : State) (w : Word) (e : DecodeError), s.Running → s.host.program[s.host.position]? = some w →
    verdict w = .invalid e → step s = .refused (.reservedOperationBits w)

/-- 60_exceptions R280: in a state with a fault or a refusal mark no operation has a step, and the stop is the
mark's. The stop is the spec's own choice (D3, D15); the fault mark before the refusal mark is the model's (log
entry 7). -/
def Obligations.MarkedStateHasNoStep : Prop :=
  ∀ (i : Instr) (s : State),
    (∀ r, s.apu.fault = some r → exec i s = .fault r ∧ step s = .fault r)
      ∧ ∀ r, s.apu.fault = none → s.apu.refusal = some r → exec i s = .refused r ∧ step s = .refused r

/-! ## Reset -/

/-- 70_reset R301 (10_state R22-R31): the reset state, under every value of the parameters; and the default of every
parameter (00_scope R9), the wave shifts of 41_wave R186 and the read masks of 30_encoding R92 among them. The values
are the spec's own choices (D10, D18; of the defaults D3, D6, D7, D8, D14, D15, D17, D18, D33); the parameters in the
state are the model's (log entry 2). -/
def Obligations.ResetHoldsTheSpecValues : Prop :=
  State.reset = State.resetWith Params.default ∧
  (
    let q := Params.default
    (q.dutyTable.toList.map fun row => row.toList.map Bool.toNat)
        = [[0, 0, 0, 0, 0, 0, 0, 1], [1, 0, 0, 0, 0, 0, 0, 1], [1, 0, 0, 0, 0, 1, 1, 1], [0, 1, 1, 1, 1, 1, 1, 0]]
      ∧ q.noiseDivisorTable.toList = [8, 16, 32, 48, 64, 80, 96, 112]
      ∧ q.waveShiftTable.toList = [0, 1, 2, 3]
      ∧ q.readMask.toList.take 23
        = [0x80#8, 0x3F#8, 0x00#8, 0xFF#8, 0xBF#8, 0xFF#8, 0x3F#8, 0x00#8, 0xFF#8, 0xBF#8, 0x7F#8, 0xFF#8, 0x9F#8,
          0xFF#8, 0xBF#8, 0xFF#8, 0xFF#8, 0x00#8, 0x00#8, 0xBF#8, 0x00#8, 0x00#8, 0x70#8]
      ∧ (∀ k : Fin 48, 0xFF27 ≤ 0xFF10 + k.val → q.readMask[k] = if 0xFF10 + k.val ≤ 0xFF2F then 0xFF#8 else 0x00#8)
      ∧ (q.sweepOverflow = .fault ∧ q.envFreezeLatch = true ∧ q.busRange = .fault ∧ q.powerOff = .refuse)
      ∧ ∀ i : Fin 16, q.waveRamInit[i] = 0x00#8) ∧
  ∀ p : Params,
    let a := (State.resetWith p).apu
    (∀ c ∈ [a.ch1.toChannel, a.ch2.toChannel, a.ch3.toChannel, a.ch4.toChannel],
        c.enabled = false ∧ c.dacEnabled = false ∧ c.lengthEnabled = false ∧ c.lengthCounter = 0 ∧ c.period = 0)
      ∧ (∀ e ∈ [a.ch1.toEnvelope, a.ch2.toEnvelope, a.ch4.toEnvelope],
        e.volume = 0 ∧ e.volumeInit = 0#4 ∧ e.envDirection = false ∧ e.volumePeriod = 0#3 ∧ e.volumeCounter = 0
          ∧ e.envFrozen = false)
      ∧ (∀ c ∈ [a.ch1, a.ch2], c.frequency = 0#11 ∧ c.duty = 0#2 ∧ c.dutyIdx = 0#3)
      ∧ (a.sweep.sweepTime = 0#3 ∧ a.sweep.sweepDirection = false ∧ a.sweep.sweepShifts = 0#3 ∧ a.sweep.sweepCounter = 0)
      ∧ (a.ch3.frequency = 0#11 ∧ a.ch3.sampleNibble = 0#5 ∧ a.ch3.sampleBuffer = 0#4 ∧ a.ch3.volumeCode = 0#2)
      ∧ (∀ i : Fin 16, Memory.read a.ch3.waveRam (0xFF30 + i.val) = p.waveRamInit[i])
      ∧ (a.ch4.lfsr = 0#15 ∧ a.ch4.clockShift = 0#4 ∧ a.ch4.divisorCode = 0#3 ∧ a.ch4.widthMode = false)
      ∧ (a.fs.period = 8192 ∧ a.fs.frame = 0#3)
      ∧ (a.mix.leftVolume = 0#3 ∧ a.mix.rightVolume = 0#3 ∧ a.mix.vinLeft = false ∧ a.mix.vinRight = false)
      ∧ (a.mix.routeLeft = ⟨false, false, false, false⟩ ∧ a.mix.routeRight = ⟨false, false, false, false⟩)
      ∧ (a.power = false ∧ a.fault = none ∧ a.refusal = none)

/-- 70_reset R302: what every READ of the window returns at reset, and what SAMPLE returns. The masks and reset
values are the spec's own choices (D6, D18). -/
def Obligations.ReadsAtResetMatchTheTable : Prop :=
  (∀ r ∈ ([(.readNr10, 0x80#8), (.readNr11, 0x3F#8), (.readNr12, 0x00#8), (.readNr13, 0xFF#8), (.readNr14, 0xBF#8),
        (.readUnusedFf15, 0xFF#8), (.readNr21, 0x3F#8), (.readNr22, 0x00#8), (.readNr23, 0xFF#8), (.readNr24, 0xBF#8),
        (.readNr30, 0x7F#8), (.readNr31, 0xFF#8), (.readNr32, 0x9F#8), (.readNr33, 0xFF#8), (.readNr34, 0xBF#8),
        (.readUnusedFf1f, 0xFF#8), (.readNr41, 0xFF#8), (.readNr42, 0x00#8), (.readNr43, 0x00#8), (.readNr44, 0xBF#8),
        (.readNr50, 0x00#8), (.readNr51, 0x00#8), (.readNr52, 0x70#8), (.readUnusedFf27, 0xFF#8)] : List (Instr × Byte)),
      Answers r.1 State.reset r.2)
    ∧ (∀ j, Answers (.readUnusedFf28To2f j) State.reset 0xFF#8)
    ∧ (∀ i, Answers (.readWave i) State.reset 0x00#8)
    ∧ exec .sample State.reset
        = .next { State.reset with host := { State.reset.host with replies := .pair 0 0 :: State.reset.host.replies } }

/-- 70_reset R303: the first STEP after reset expires all four timers. The spec derives it from its own choices (D9,
D18). -/
def Obligations.FirstStepAfterReset : Prop :=
  ∀ p : Params, p.noiseDivisorTable = Params.default.noiseDivisorTable →
    ∃ t, exec .step (State.resetWith p) = .next t
      ∧ (t.apu.ch1.dutyIdx = 1#3 ∧ t.apu.ch2.dutyIdx = 1#3 ∧ t.apu.ch1.period = 8192 ∧ t.apu.ch2.period = 8192)
      ∧ (t.apu.ch3.sampleNibble = 1#5 ∧ t.apu.ch3.sampleBuffer.toNat = (p.waveRamInit[0]).toNat % 16
        ∧ t.apu.ch3.period = 4096)
      ∧ (t.apu.ch4.lfsr = 0#15 ∧ t.apu.ch4.period = 8)

/-! ## Invariants and whole-machine rules -/

/-- The machine's invariant holds at reset. The wave RAM's canonical form is the model's own. -/
def Obligations.ResetMeetsTheInvariant : Prop := State.reset.Inv

/-- 10_state R22-R34: every step, from every state that meets the machine's invariant, leads to one that meets it.
The ranges of the counters are the spec's inferences (R33, R34), the wave RAM's canonical form the model's. -/
def Obligations.EveryStepKeepsTheInvariant : Prop := ∀ s t : State, s.Inv → step s = .next t → t.Inv

/-- 10_state R32: `!dac_enabled ⇒ !enabled`; reset establishes it and every operation keeps it. -/
def Obligations.DacOffAlwaysMeansDisabled : Prop :=
  (∀ p, (State.resetWith p).DacGates)
    ∧ (∀ (i : Instr) (s t : State), s.DacGates → exec i s = .next t → t.DacGates)
    ∧ ∀ s t : State, s.DacGates → step s = .next t → t.DacGates

/-- 10_state R33: the length counters stay in range, a trigger leaves its channel's above 0, and a length load
writes 1-64, or 1-256 for channel 3. The spec derives it (R33). -/
def Obligations.LengthCountersStayInRange : Prop :=
  (∀ p, (State.resetWith p).LengthsInRange)
    ∧ (∀ s t : State, s.LengthsInRange → step s = .next t → t.LengthsInRange)
    ∧ (∀ (d : Byte) (s t : State), bit d 7 = true →
        (exec (.writeNr14 d) s = .next t → 0 < t.apu.ch1.lengthCounter)
          ∧ (exec (.writeNr24 d) s = .next t → 0 < t.apu.ch2.lengthCounter)
          ∧ (exec (.writeNr34 d) s = .next t → 0 < t.apu.ch3.lengthCounter)
          ∧ (exec (.writeNr44 d) s = .next t → 0 < t.apu.ch4.lengthCounter))
    ∧ ∀ (d : Byte) (s t : State),
        (exec (.writeNr11 d) s = .next t → 1 ≤ t.apu.ch1.lengthCounter ∧ t.apu.ch1.lengthCounter ≤ 64)
          ∧ (exec (.writeNr21 d) s = .next t → 1 ≤ t.apu.ch2.lengthCounter ∧ t.apu.ch2.lengthCounter ≤ 64)
          ∧ (exec (.writeNr31 d) s = .next t → 1 ≤ t.apu.ch3.lengthCounter ∧ t.apu.ch3.lengthCounter ≤ 256)
          ∧ (exec (.writeNr41 d) s = .next t → 1 ≤ t.apu.ch4.lengthCounter ∧ t.apu.ch4.lengthCounter ≤ 64)

/-- 10_state R34: the envelope volumes never leave 0..15. The spec derives it (R34). -/
def Obligations.EnvelopeVolumesStayInRange : Prop :=
  (∀ p, (State.resetWith p).VolumesInRange)
    ∧ ∀ s t : State, s.VolumesInRange → step s = .next t → t.VolumesInRange

/-- 00_scope R19, 10_state R21: no step changes a parameter or the host's program. Holding both in the state is the
model's choice (log entries 1, 2). -/
def Obligations.ParametersAndProgramNeverChange : Prop :=
  ∀ s t : State, step s = .next t → t.params = s.params ∧ t.host.program = s.host.program

/-- 43_frame_sequencer R230: only STEP moves the frame sequencer, by one clock of its divide-by-8192 counter; no other
operation reads it: whatever it holds, the operation does the same to everything else. The clock is the countdown of
40_pulse R129 through R231, the spec's own choice (D9). -/
def Obligations.OnlyStepMovesTheFrameSequencer : Prop :=
  ∀ (i : Instr) (s t : State), exec i s = .next t →
    (i ≠ .step → t.apu.fs = s.apu.fs)
      ∧ (i = .step → t.apu.fs.period = if s.apu.fs.period ≤ 1 then 8192 else s.apu.fs.period - 1)
      ∧ (i ≠ .step → ∀ v : FrameSequencer,
        exec i { s with apu := { s.apu with fs := v } } = .next { t with apu := { t.apu with fs := v } })

/-- 10_state R35, R32: `chc.enabled` rises only by a trigger of channel c with its DAC on. The DAC gate of a trigger
is the spec's own choice (D11). -/
def Obligations.OnlyATriggerEnablesAChannel : Prop :=
  ∀ (i : Instr) (s t : State), exec i s = .next t →
    (s.apu.ch1.enabled = false → t.apu.ch1.enabled = true →
        s.apu.ch1.dacEnabled = true ∧ ∃ d, i = .writeNr14 d ∧ bit d 7 = true)
      ∧ (s.apu.ch2.enabled = false → t.apu.ch2.enabled = true →
        s.apu.ch2.dacEnabled = true ∧ ∃ d, i = .writeNr24 d ∧ bit d 7 = true)
      ∧ (s.apu.ch3.enabled = false → t.apu.ch3.enabled = true →
        s.apu.ch3.dacEnabled = true ∧ ∃ d, i = .writeNr34 d ∧ bit d 7 = true)
      ∧ (s.apu.ch4.enabled = false → t.apu.ch4.enabled = true →
        s.apu.ch4.dacEnabled = true ∧ ∃ d, i = .writeNr44 d ∧ bit d 7 = true)

/-- 10_state R63, 41_wave R175: the frame of memory. Every operation leaves every byte as it was, but for the byte
that WRITE WAVEi stores. The absence of any other writer is read from the rules of all the operations. -/
def Obligations.OnlyWriteWaveChangesTheWaveRam : Prop :=
  ∀ (i : Instr) (s t : State) (a : Nat), exec i s = .next t →
    (∀ j d, i = .writeWave j d → a ≠ waveAddr j) → Memory.read t.apu.ch3.waveRam a = Memory.read s.apu.ch3.waveRam a

/-- 20_memory R78: no operation but STEP changes the sample buffer, and STEP changes it only when channel 3's timer
expires, to the sample of the wave RAM as the latest WRITE left it (41_wave R183). When the timer expires is the
countdown, the spec's own choice (D9). -/
def Obligations.SampleBufferChangesOnlyAtTimerExpiry : Prop :=
  ∀ (i : Instr) (s t : State), exec i s = .next t →
    (i ≠ .step → t.apu.ch3.sampleBuffer = s.apu.ch3.sampleBuffer)
      ∧ (1 < s.apu.ch3.period → t.apu.ch3.sampleBuffer = s.apu.ch3.sampleBuffer)
      ∧ (i = .step → s.apu.ch3.period ≤ 1 →
        let n := (s.apu.ch3.sampleNibble.toNat + 1) % 32
        let b := (Memory.read s.apu.ch3.waveRam (0xFF30 + n / 2)).toNat
        t.apu.ch3.sampleBuffer.toNat = if n % 2 = 0 then b / 16 else b % 16)

/-- 20_memory R70: a READ of the window completes and changes no state, and a second READ returns the same byte. It
is the spec's own choice (D20); the replies list is the model's (log entry 3). -/
def Obligations.ReadsChangeNoState : Prop :=
  ∀ (i : Instr) (a : Addr) (s : State), s.Running → i.WellFormed → IsRead i → i.addr? = some a → inWindow a = true →
    ∃ b t, exec i s = .next t ∧ Answered s t b ∧ Answers i t b

/-! ## Pulse channels -/

/-- 40_pulse R110. That the sweep counter stays is the spec's own choice (D21). -/
def Obligations.WriteNr10SetsTheSweep : Prop :=
  (∀ (d : Byte) (s : State), s.Running → s.AcceptsWrites →
    exec (.writeNr10 d) s
      = .next { s with apu := { s.apu with sweep := { s.apu.sweep with
          sweepTime := BitVec.ofNat 3 (bits d 6 4)
          sweepDirection := bit d 3
          sweepShifts := BitVec.ofNat 3 (bits d 2 0) } } })
    ∧ (∀ d : Byte, (encode (.writeNr10 d)).toNat = 0x40FF1000 + d.toNat)
    ∧ ∀ (p : Params) (a : Apu), a.sweep.sweepTime = 0#3 → a.clockSweep p = a

/-- 40_pulse R111, R115 (30_encoding R88): the duty and the length load, whatever the channel's flags hold; the duty
phase and the flags stay. -/
def Obligations.WriteNr11AndNr21LoadDutyAndLength : Prop :=
  ∀ (d : Byte) (s : State), s.Running → s.AcceptsWrites →
    exec (.writeNr11 d) s
        = .next { s with apu := { s.apu with ch1 := { s.apu.ch1 with
            duty := BitVec.ofNat 2 (bits d 7 6)
            lengthCounter := 64 - bits d 5 0 } } }
      ∧ exec (.writeNr21 d) s
        = .next { s with apu := { s.apu with ch2 := { s.apu.ch2 with
            duty := BitVec.ofNat 2 (bits d 7 6)
            lengthCounter := 64 - bits d 5 0 } } }
      ∧ (encode (.writeNr11 d)).toNat = 0x40FF1100 + d.toNat
      ∧ (encode (.writeNr21 d)).toNat = 0x40FF1600 + d.toNat

/-- 40_pulse R112, R116, 42_noise R201, by `EnvWrite` (R128): the three fields, the DAC from the top five bits, and
`enabled` forced false with the DAC off; volume, counter and latch stay. That volume, counter and latch stay is the
spec's own choice (D22). -/
def Obligations.WriteEnvelopeSetsFieldsAndDac : Prop :=
  ∀ (d : Byte) (s : State), s.Running → s.AcceptsWrites →
    let dac : Bool := bits d 7 3 != 0
    exec (.writeNr12 d) s
        = .next { s with apu := { s.apu with ch1 := { s.apu.ch1 with
            volumeInit := BitVec.ofNat 4 (bits d 7 4)
            envDirection := bit d 3
            volumePeriod := BitVec.ofNat 3 (bits d 2 0)
            dacEnabled := dac
            enabled := dac && s.apu.ch1.enabled } } }
      ∧ exec (.writeNr22 d) s
        = .next { s with apu := { s.apu with ch2 := { s.apu.ch2 with
            volumeInit := BitVec.ofNat 4 (bits d 7 4)
            envDirection := bit d 3
            volumePeriod := BitVec.ofNat 3 (bits d 2 0)
            dacEnabled := dac
            enabled := dac && s.apu.ch2.enabled } } }
      ∧ exec (.writeNr42 d) s
        = .next { s with apu := { s.apu with ch4 := { s.apu.ch4 with
            volumeInit := BitVec.ofNat 4 (bits d 7 4)
            envDirection := bit d 3
            volumePeriod := BitVec.ofNat 3 (bits d 2 0)
            dacEnabled := dac
            enabled := dac && s.apu.ch4.enabled } } }
      ∧ (encode (.writeNr12 d)).toNat = 0x40FF1200 + d.toNat
      ∧ (encode (.writeNr22 d)).toNat = 0x40FF1700 + d.toNat
      ∧ (encode (.writeNr42 d)).toNat = 0x40FF2100 + d.toNat

/-- 40_pulse R113, R117, 41_wave R173 (30_encoding R87): bits 7:0 of the frequency alone; no timer is reloaded. That
no timer is reloaded is the spec's own choice (D21). -/
def Obligations.WriteFrequencyLowKeepsTheHighBits : Prop :=
  ∀ (d : Byte) (s : State), s.Running → s.AcceptsWrites →
    let low (f : BitVec 11) : BitVec 11 := BitVec.ofNat 11 (f.toNat / 256 * 256 + d.toNat)
    exec (.writeNr13 d) s
        = .next { s with apu := { s.apu with ch1 := { s.apu.ch1 with frequency := low s.apu.ch1.frequency } } }
      ∧ exec (.writeNr23 d) s
        = .next { s with apu := { s.apu with ch2 := { s.apu.ch2 with frequency := low s.apu.ch2.frequency } } }
      ∧ exec (.writeNr33 d) s
        = .next { s with apu := { s.apu with ch3 := { s.apu.ch3 with frequency := low s.apu.ch3.frequency } } }
      ∧ (encode (.writeNr13 d)).toNat = 0x40FF1300 + d.toNat
      ∧ (encode (.writeNr23 d)).toNat = 0x40FF1800 + d.toNat
      ∧ (encode (.writeNr33 d)).toNat = 0x40FF1D00 + d.toNat

/-- 40_pulse R114, R118, R131, R137: the high frequency bits and the length enable, and with bit 7 set the trigger,
which reloads the timer from the frequency this write set, restarts the envelope, reloads the length only from 0,
and starts the channel only with its DAC on. Nothing else changes; the sweep and the duty phase stay. The DAC gate
of the trigger and the order of the parts are the spec's own choices (D11, D14, D30, D36). -/
def Obligations.WriteNr14AndNr24TriggerThePulse : Prop :=
  ∀ (d : Byte) (s : State), s.Running → s.AcceptsWrites →
    let freq (c : Pulse) : BitVec 11 := BitVec.ofNat 11 (256 * bits d 2 0 + c.frequency.toNat % 256)
    let after (c : Pulse) : Pulse :=
      if bit d 7 then
        { c with
          frequency := freq c
          lengthEnabled := bit d 6
          enabled := c.dacEnabled
          lengthCounter := if c.lengthCounter = 0 then 64 else c.lengthCounter
          period := (2048 - (freq c).toNat) * 4
          volume := c.volumeInit.toNat
          volumeCounter := c.volumePeriod.toNat
          envFrozen := !s.params.envFreezeLatch && c.envFrozen }
      else { c with frequency := freq c, lengthEnabled := bit d 6 }
    exec (.writeNr14 d) s = .next { s with apu := { s.apu with ch1 := after s.apu.ch1 } }
      ∧ exec (.writeNr24 d) s = .next { s with apu := { s.apu with ch2 := after s.apu.ch2 } }
      ∧ (encode (.writeNr14 d)).toNat = 0x40FF1400 + d.toNat
      ∧ (encode (.writeNr24 d)).toNat = 0x40FF1900 + d.toNat

/-- 40_pulse R119-R127: what the READs of the pulse registers return, with the default read masks. -/
def Obligations.PulseRegisterReads : Prop :=
  ∀ s : State, s.Running → s.params.readMask = Params.default.readMask →
    let duty (c : Pulse) : Byte := BitVec.ofNat 8 (64 * c.duty.toNat + 0x3F)
    let env (c : Pulse) : Byte :=
      BitVec.ofNat 8 (16 * c.volumeInit.toNat + 8 * c.envDirection.toNat + c.volumePeriod.toNat)
    let control (c : Pulse) : Byte := BitVec.ofNat 8 (0xBF + 64 * c.lengthEnabled.toNat)
    let w := s.apu.sweep
    Answers .readNr10 s (BitVec.ofNat 8 (0x80 + 16 * w.sweepTime.toNat + 8 * w.sweepDirection.toNat + w.sweepShifts.toNat))
      ∧ Answers .readNr11 s (duty s.apu.ch1) ∧ Answers .readNr12 s (env s.apu.ch1)
      ∧ Answers .readNr13 s 0xFF#8 ∧ Answers .readNr14 s (control s.apu.ch1)
      ∧ Answers .readNr21 s (duty s.apu.ch2) ∧ Answers .readNr22 s (env s.apu.ch2)
      ∧ Answers .readNr23 s 0xFF#8 ∧ Answers .readNr24 s (control s.apu.ch2)
      ∧ [Instr.readNr10, .readNr11, .readNr12, .readNr13, .readNr14, .readNr21, .readNr22, .readNr23, .readNr24].map encode
        = [0x00FF1000#32, 0x00FF1100#32, 0x00FF1200#32, 0x00FF1300#32, 0x00FF1400#32, 0x00FF1600#32, 0x00FF1700#32,
          0x00FF1800#32, 0x00FF1900#32]

/-! ## Wave channel -/

/-- 41_wave R170, R171, R172, 42_noise R200: the DAC power, the length and the volume code of channel 3, and the length of
channel 4. -/
def Obligations.WriteNr30Nr31Nr32Nr41SetTheirFields : Prop :=
  ∀ (d : Byte) (s : State), s.Running → s.AcceptsWrites →
    exec (.writeNr30 d) s
        = .next { s with apu := { s.apu with ch3 := { s.apu.ch3 with
            dacEnabled := bit d 7
            enabled := bit d 7 && s.apu.ch3.enabled } } }
      ∧ exec (.writeNr31 d) s
        = .next { s with apu := { s.apu with ch3 := { s.apu.ch3 with lengthCounter := 256 - d.toNat } } }
      ∧ exec (.writeNr32 d) s
        = .next { s with apu := { s.apu with ch3 := { s.apu.ch3 with volumeCode := BitVec.ofNat 2 (bits d 6 5) } } }
      ∧ exec (.writeNr41 d) s
        = .next { s with apu := { s.apu with ch4 := { s.apu.ch4 with lengthCounter := 64 - bits d 5 0 } } }
      ∧ (encode (.writeNr30 d)).toNat = 0x40FF1A00 + d.toNat
      ∧ (encode (.writeNr31 d)).toNat = 0x40FF1B00 + d.toNat
      ∧ (encode (.writeNr32 d)).toNat = 0x40FF1C00 + d.toNat
      ∧ (encode (.writeNr41 d)).toNat = 0x40FF2000 + d.toNat

/-- 41_wave R174, R182, 40_pulse R137: as for the pulses, with 256 and a factor of 2; the trigger restarts the
sample pointer and leaves the sample buffer and the wave RAM. The DAC gate of the trigger and the order of the parts
are the spec's own choices (D11, D30). -/
def Obligations.WriteNr34TriggersTheWave : Prop :=
  ∀ (d : Byte) (s : State), s.Running → s.AcceptsWrites →
    let c := s.apu.ch3
    let freq : BitVec 11 := BitVec.ofNat 11 (256 * bits d 2 0 + c.frequency.toNat % 256)
    let after : Wave :=
      if bit d 7 then
        { c with
          frequency := freq
          lengthEnabled := bit d 6
          enabled := c.dacEnabled
          lengthCounter := if c.lengthCounter = 0 then 256 else c.lengthCounter
          period := (2048 - freq.toNat) * 2
          sampleNibble := 0#5 }
      else { c with frequency := freq, lengthEnabled := bit d 6 }
    exec (.writeNr34 d) s = .next { s with apu := { s.apu with ch3 := after } }
      ∧ (encode (.writeNr34 d)).toNat = 0x40FF1E00 + d.toNat

/-- 41_wave R175: WRITE WAVEi stores its byte at any time, whatever the power bit and the channel hold, and leaves every
other byte and the rest of the state, the sample buffer among it; a fetch of either of the byte's samples then reads its
nibble. The canonical form of the wave RAM, a hypothesis and a part of the conclusion, is the model's (log entry 10). -/
def Obligations.WriteWaveStoresOneByte : Prop :=
  ∀ (i : BitVec 4) (d : Byte) (s : State), s.Running → Memory.wf s.apu.ch3.waveRam = true →
    (∃ m : Memory,
      exec (.writeWave i d) s = .next { s with apu := { s.apu with ch3 := { s.apu.ch3 with waveRam := m } } }
        ∧ Memory.read m (waveAddr i) = d
        ∧ (∀ a, a ≠ waveAddr i → Memory.read m a = Memory.read s.apu.ch3.waveRam a)
        ∧ Memory.wf m = true
        ∧ ∀ n : BitVec 5, n.toNat / 2 = i.toNat →
          (Memory.sample m n).toNat = if n.toNat % 2 = 0 then d.toNat / 16 else d.toNat % 16)
      ∧ (encode (.writeWave i d)).toNat = 0x40FF3000 + 256 * i.toNat + d.toNat

/-- 41_wave R176-R180: what the READs of the wave registers return, with the default read masks; NR30 bit 7 is `enabled`,
not `dac_enabled`. -/
def Obligations.WaveRegisterReads : Prop :=
  ∀ s : State, s.Running → s.params.readMask = Params.default.readMask →
    Answers .readNr30 s (BitVec.ofNat 8 (0x7F + 128 * s.apu.ch3.enabled.toNat))
      ∧ Answers .readNr31 s 0xFF#8
      ∧ Answers .readNr32 s (BitVec.ofNat 8 (0x9F + 32 * s.apu.ch3.volumeCode.toNat))
      ∧ Answers .readNr33 s 0xFF#8
      ∧ Answers .readNr34 s (BitVec.ofNat 8 (0xBF + 64 * s.apu.ch3.lengthEnabled.toNat))
      ∧ [Instr.readNr30, .readNr31, .readNr32, .readNr33, .readNr34].map encode
        = [0x00FF1A00#32, 0x00FF1B00#32, 0x00FF1C00#32, 0x00FF1D00#32, 0x00FF1E00#32]

/-! ## Noise channel -/

/-- 42_noise R202: the polynomial register; the running timer is not reloaded (D21, the spec's own choice). -/
def Obligations.WriteNr43SetsThePolynomial : Prop :=
  ∀ (d : Byte) (s : State), s.Running → s.AcceptsWrites →
    exec (.writeNr43 d) s
        = .next { s with apu := { s.apu with ch4 := { s.apu.ch4 with
            clockShift := BitVec.ofNat 4 (bits d 7 4)
            widthMode := bit d 3
            divisorCode := BitVec.ofNat 3 (bits d 2 0) } } }
      ∧ (encode (.writeNr43 d)).toNat = 0x40FF2200 + d.toNat

/-- 42_noise R203, R211, R212: the length enable, and with bit 7 set the trigger, which also sets the LFSR to all
ones. The DAC gate of the trigger is the spec's own choice (D11). -/
def Obligations.WriteNr44TriggersTheNoise : Prop :=
  ∀ (d : Byte) (s : State), s.Running → s.AcceptsWrites →
    let c := s.apu.ch4
    let after : Noise :=
      if bit d 7 then
        { c with
          lengthEnabled := bit d 6
          enabled := c.dacEnabled
          lengthCounter := if c.lengthCounter = 0 then 64 else c.lengthCounter
          period := s.params.noiseDivisorTable[c.divisorCode.toNat]'c.divisorCode.isLt * 2 ^ c.clockShift.toNat
          volume := c.volumeInit.toNat
          volumeCounter := c.volumePeriod.toNat
          envFrozen := !s.params.envFreezeLatch && c.envFrozen
          lfsr := 0x7FFF#15 }
      else { c with lengthEnabled := bit d 6 }
    exec (.writeNr44 d) s = .next { s with apu := { s.apu with ch4 := after } }
      ∧ (encode (.writeNr44 d)).toNat = 0x40FF2300 + d.toNat

/-- 42_noise R205-R208: what the READs of the noise registers return, with the default read masks. -/
def Obligations.NoiseRegisterReads : Prop :=
  ∀ s : State, s.Running → s.params.readMask = Params.default.readMask →
    let c := s.apu.ch4
    Answers .readNr41 s 0xFF#8
      ∧ Answers .readNr42 s (BitVec.ofNat 8 (16 * c.volumeInit.toNat + 8 * c.envDirection.toNat + c.volumePeriod.toNat))
      ∧ Answers .readNr43 s (BitVec.ofNat 8 (16 * c.clockShift.toNat + 8 * c.widthMode.toNat + c.divisorCode.toNat))
      ∧ Answers .readNr44 s (BitVec.ofNat 8 (0xBF + 64 * c.lengthEnabled.toNat))
      ∧ [Instr.readNr41, .readNr42, .readNr43, .readNr44].map encode
        = [0x00FF2000#32, 0x00FF2100#32, 0x00FF2200#32, 0x00FF2300#32]

/-- 42_noise R209: one LFSR step, in the arithmetic of naturals: the value shifts right, the feedback bit enters at bit
14, and with the narrow tap it replaces bit 6 as well. -/
def Obligations.LfsrStepShiftsInTheFeedbackBit : Prop :=
  ∀ l : BitVec 15,
    let x := l.toNat
    let feedback := (x + x / 2) % 2
    (lfsrStep l false).toNat = x / 2 + feedback * 2 ^ 14
      ∧ (lfsrStep l true).toNat = x / 2 - (x / 2 / 2 ^ 6 % 2) * 2 ^ 6 + feedback * 2 ^ 14 + feedback * 2 ^ 6
      ∧ lfsrStep 0x7FFF#15 false = 0x3FFF#15 ∧ lfsrStep 0x7FFF#15 true = 0x3FBF#15
      ∧ lfsrStep 0x0001#15 false = 0x4000#15 ∧ lfsrStep 0x0002#15 false = 0x4001#15

/-- 42_noise R210: the periods of the LFSR. The spec derives it by enumeration (R210). -/
def Obligations.LfsrSequencesHaveTheirPeriods : Prop :=
  let wide (n : Nat) (l : BitVec 15) : BitVec 15 := (fun l => lfsrStep l false)^[n] l
  let narrow (n : Nat) (l : BitVec 15) : BitVec 15 := (fun l => lfsrStep l true)^[n] l
  (wide 32767 0x7FFF#15 = 0x7FFF#15 ∧ ∀ n, 0 < n → n < 32767 → wide n 0x7FFF#15 ≠ 0x7FFF#15)
    ∧ (∀ v : BitVec 15, v ≠ 0#15 → ∃ n, wide n 0x7FFF#15 = v)
    ∧ (narrow 1 0x7FFF#15 = 0x3FBF#15 ∧ narrow 127 0x3FBF#15 = 0x3FBF#15
      ∧ ∀ n, 0 < n → n < 127 → narrow n 0x3FBF#15 ≠ 0x3FBF#15)
    ∧ (∀ n, 0 < n → narrow n 0x7FFF#15 ≠ 0x7FFF#15)
    ∧ (∀ b, lfsrStep 0#15 b = 0#15)
    ∧ (∀ n, wide n 0x7FFF#15 ≠ 0#15 ∧ narrow n 0x7FFF#15 ≠ 0#15)
    ∧ ∀ p, (State.resetWith p).apu.ch4.lfsr = 0#15

/-! ## STEP -/

/-- 40_pulse R129: one clock of a counter, and the clock on which a counter expires. The order within a clock is the
spec's own choice (D9). -/
def Obligations.CountdownExpiresOnItsNthClock : Prop :=
  (∀ x r : Nat, countdown x r = if x ≤ 1 then (r, true) else (x - 1, false))
    ∧ ∀ n r k : Nat, k < n →
        (fun x => (countdown x r).1)^[k] n = n - k ∧ (countdown (n - k) r).2 = decide (k + 1 = n)

/-- 43_frame_sequencer R233, 60_exceptions R282, 40_pulse R134: STEP completes in every running state, but for a
sweep sum above 2047 under `SWEEP_OVERFLOW = fault`, where it faults and records the sum. The fault, and that the
units run whatever the flags and the power bit hold, are the spec's own choices (D15, D17, D23). -/
def Obligations.StepCompletesUnlessTheSweepOverflows : Prop :=
  ∀ s : State, s.Running →
    (¬ (s.SweepOverflows ∧ s.params.sweepOverflow = .fault) →
        ∃ t, exec .step s = .next t ∧ t.host = s.host ∧ t.params = s.params
          ∧ t.apu.fs.period = if s.TickDue then 8192 else s.apu.fs.period - 1)
      ∧ (s.SweepOverflows → s.params.sweepOverflow = .fault → exec .step s = .fault (.sweepOverflow s.sweepSum))
      ∧ encode .step = 0x80000000#32

/-- 40_pulse R130: STEP clocks the timers of channels 1 and 2, whatever their flags hold; the reload reads the
frequency as it stands at the expiry. The countdown is the spec's own choice (D9). -/
def Obligations.StepClocksThePulseTimers : Prop :=
  (∀ s t : State, exec .step s = .next t →
    let period (c : Pulse) : Nat := if c.period ≤ 1 then (2048 - c.frequency.toNat) * 4 else c.period - 1
    let idx (c : Pulse) : Nat := if c.period ≤ 1 then (c.dutyIdx.toNat + 1) % 8 else c.dutyIdx.toNat
    (t.apu.ch1.period = period s.apu.ch1 ∧ t.apu.ch1.dutyIdx.toNat = idx s.apu.ch1)
      ∧ (t.apu.ch2.period = period s.apu.ch2 ∧ t.apu.ch2.dutyIdx.toNat = idx s.apu.ch2))
    ∧ ∀ f : BitVec 11, 4 ≤ pulseReload f ∧ pulseReload f ≤ 8192

/-- 41_wave R181, R183: STEP clocks the timer of channel 3; the pointer advances before the fetch. The countdown is
the spec's own choice (D9). -/
def Obligations.StepClocksTheWaveTimer : Prop :=
  (∀ s t : State, exec .step s = .next t →
    let c := s.apu.ch3
    let n := (c.sampleNibble.toNat + 1) % 32
    let b := (Memory.read c.waveRam (0xFF30 + n / 2)).toNat
    (1 < c.period → t.apu.ch3.period = c.period - 1 ∧ t.apu.ch3.sampleNibble = c.sampleNibble
        ∧ t.apu.ch3.sampleBuffer = c.sampleBuffer)
      ∧ (c.period ≤ 1 → t.apu.ch3.period = (2048 - c.frequency.toNat) * 2 ∧ t.apu.ch3.sampleNibble.toNat = n
        ∧ t.apu.ch3.sampleBuffer.toNat = if n % 2 = 0 then b / 16 else b % 16))
    ∧ ∀ f : BitVec 11, 2 ≤ waveReload f ∧ waveReload f ≤ 4096

/-- 42_noise R211, R213: STEP clocks the timer of channel 4, and the LFSR at its expiry. The countdown is the spec's
own choice (D9). -/
def Obligations.StepClocksTheNoiseTimer : Prop :=
  ∀ s t : State, exec .step s = .next t →
    let c := s.apu.ch4
    (1 < c.period → t.apu.ch4.period = c.period - 1 ∧ t.apu.ch4.lfsr = c.lfsr)
      ∧ (c.period ≤ 1 →
        t.apu.ch4.period = s.params.noiseDivisorTable[c.divisorCode.toNat]'c.divisorCode.isLt * 2 ^ c.clockShift.toNat
          ∧ t.apu.ch4.lfsr = lfsrStep c.lfsr c.widthMode)

/-- 43_frame_sequencer R231: STEP counts the divider, and its expiry advances the frame. The countdown and the
frame's modulus are the spec's own choices (D9, D10, D28). -/
def Obligations.StepAdvancesTheFrameSequencer : Prop :=
  ∀ s t : State, exec .step s = .next t →
    t.apu.fs.period = (if s.apu.fs.period ≤ 1 then 8192 else s.apu.fs.period - 1)
      ∧ t.apu.fs.frame.toNat
        = if s.apu.fs.period ≤ 1 then (s.apu.fs.frame.toNat + 1) % 8 else s.apu.fs.frame.toNat

/-- 40_pulse R132, 43_frame_sequencer R232: a length tick, on an even frame, counts down every channel whose length
is enabled, and at 0 disables it; STEP clears no flag otherwise, but channel 1's at a sweep overflow under
`SWEEP_OVERFLOW = disable`. That the counter of a disabled channel counts is the spec's own choice (D23). -/
def Obligations.StepClocksTheLengthCounters : Prop :=
  ∀ s t : State, exec .step s = .next t →
    let counter (c : Channel) : Nat := if s.LengthCounts c then c.lengthCounter - 1 else c.lengthCounter
    let stays (c : Channel) : Bool := c.enabled && !decide (s.LengthCounts c ∧ c.lengthCounter = 1)
    t.apu.ch1.lengthCounter = counter s.apu.ch1.toChannel
      ∧ t.apu.ch2.lengthCounter = counter s.apu.ch2.toChannel
      ∧ t.apu.ch3.lengthCounter = counter s.apu.ch3.toChannel
      ∧ t.apu.ch4.lengthCounter = counter s.apu.ch4.toChannel
      ∧ t.apu.ch1.enabled
        = (stays s.apu.ch1.toChannel && !decide (s.SweepOverflows ∧ s.params.sweepOverflow = .disable))
      ∧ t.apu.ch2.enabled = stays s.apu.ch2.toChannel
      ∧ t.apu.ch3.enabled = stays s.apu.ch3.toChannel
      ∧ t.apu.ch4.enabled = stays s.apu.ch4.toChannel

/-- 40_pulse R134, 43_frame_sequencer R232: a sweep tick, on frames 2 and 6, counts the sweep counter and at its
expiry updates channel 1's frequency, as `SWEEP_OVERFLOW` says above 2047. The overflow cases, shift 0 and the
countdown are the spec's own choices (D9, D15, D31). -/
def Obligations.StepClocksTheSweep : Prop :=
  ∀ s t : State, exec .step s = .next t →
    let w := s.apu.sweep
    t.apu.sweep
        = { w with
            sweepCounter :=
              if s.SweepCounts then (if w.sweepCounter ≤ 1 then w.sweepTime.toNat else w.sweepCounter - 1)
              else w.sweepCounter }
      ∧ t.apu.ch1.frequency.toNat
        = if s.SweepDue then
            if s.sweepSum ≤ 2047 then s.sweepSum
            else if s.params.sweepOverflow = .wrap11 then s.sweepSum % 2048 else s.apu.ch1.frequency.toNat
          else s.apu.ch1.frequency.toNat

/-- 40_pulse R133, 43_frame_sequencer R232: an envelope tick, on frame 7, counts the volume counter and at its
expiry moves the volume by one within 0..15; a step that would leave the range sets the freeze latch where the latch
is in use. The latch and the countdown are the spec's own choices (D9, D14). -/
def Obligations.StepClocksTheEnvelopes : Prop :=
  ∀ s t : State, exec .step s = .next t →
    ∀ e ∈ [(s.apu.ch1.toEnvelope, t.apu.ch1.toEnvelope), (s.apu.ch2.toEnvelope, t.apu.ch2.toEnvelope),
        (s.apu.ch4.toEnvelope, t.apu.ch4.toEnvelope)],
      let o := e.1
      let latch := s.params.envFreezeLatch
      let moves : Prop := if o.envDirection then o.volume ≤ 14 else 1 ≤ o.volume ∧ o.volume ≤ 16
      (¬ s.EnvelopeDue ∨ o.volumePeriod = 0#3 → e.2 = o)
        ∧ (s.EnvelopeDue → o.volumePeriod ≠ 0#3 → 1 < o.volumeCounter →
          e.2 = { o with volumeCounter := o.volumeCounter - 1 })
        ∧ (s.EnvelopeDue → o.volumePeriod ≠ 0#3 → o.volumeCounter ≤ 1 →
          (latch = true → o.envFrozen = true → e.2 = { o with volumeCounter := o.volumePeriod.toNat })
            ∧ (¬ (latch = true ∧ o.envFrozen = true) → moves →
              e.2 = { o with
                volumeCounter := o.volumePeriod.toNat
                volume := if o.envDirection then o.volume + 1 else o.volume - 1 })
            ∧ (¬ (latch = true ∧ o.envFrozen = true) → ¬ moves →
              e.2 = { o with volumeCounter := o.volumePeriod.toNat, envFrozen := latch || o.envFrozen }))

/-- 43_frame_sequencer R233: STEP's frame: what no timer and no tick writes is unchanged. Read from the rules of all
the units. -/
def Obligations.StepLeavesEverythingElse : Prop :=
  ∀ s t : State, exec .step s = .next t →
    (t.params = s.params ∧ t.host = s.host ∧ t.apu.mix = s.apu.mix ∧ t.apu.power = s.apu.power
        ∧ t.apu.fault = s.apu.fault ∧ t.apu.refusal = s.apu.refusal)
      ∧ (∀ c ∈ [(s.apu.ch1.toChannel, t.apu.ch1.toChannel), (s.apu.ch2.toChannel, t.apu.ch2.toChannel),
          (s.apu.ch3.toChannel, t.apu.ch3.toChannel), (s.apu.ch4.toChannel, t.apu.ch4.toChannel)],
          c.2.dacEnabled = c.1.dacEnabled ∧ c.2.lengthEnabled = c.1.lengthEnabled)
      ∧ (∀ e ∈ [(s.apu.ch1.toEnvelope, t.apu.ch1.toEnvelope), (s.apu.ch2.toEnvelope, t.apu.ch2.toEnvelope),
          (s.apu.ch4.toEnvelope, t.apu.ch4.toEnvelope)],
          e.2.volumeInit = e.1.volumeInit ∧ e.2.envDirection = e.1.envDirection ∧ e.2.volumePeriod = e.1.volumePeriod)
      ∧ (t.apu.ch1.duty = s.apu.ch1.duty ∧ t.apu.ch2.duty = s.apu.ch2.duty
        ∧ t.apu.ch2.frequency = s.apu.ch2.frequency ∧ t.apu.ch3.frequency = s.apu.ch3.frequency)
      ∧ (t.apu.ch3.volumeCode = s.apu.ch3.volumeCode
        ∧ ∀ a, Memory.read t.apu.ch3.waveRam a = Memory.read s.apu.ch3.waveRam a)
      ∧ (t.apu.ch4.clockShift = s.apu.ch4.clockShift ∧ t.apu.ch4.divisorCode = s.apu.ch4.divisorCode
        ∧ t.apu.ch4.widthMode = s.apu.ch4.widthMode)

/-- 43_frame_sequencer R234: counting STEPs from reset, the tick falls on every 8192nd and carries the frames 0 to 7
in turn. The spec derives it from its own phase at reset (D10). -/
def Obligations.TicksFallOnEvery8192ndStep : Prop :=
  ∀ (p : Params) (k : Nat),
    ∃ s, runSteps k (State.resetWith p) = some s
      ∧ s.apu.fs.period = 8192 - k % 8192
      ∧ s.apu.fs.frame.toNat = k / 8192 % 8
      ∧ (s.TickDue ↔ 8192 ∣ k + 1)
      ∧ ∀ n, k + 1 = 8192 * n → s.apu.fs.frame.toNat = (n - 1) % 8

/-! ## Mixer, master control, unused addresses -/

/-- 44_mixer R250, R252: the master volume and the routing registers. The Vin bits and the bit order are the spec's
own choices (D5, D19). -/
def Obligations.WriteNr50AndNr51SetTheMixer : Prop :=
  ∀ (d : Byte) (s : State), s.Running → s.AcceptsWrites →
    exec (.writeNr50 d) s
        = .next { s with apu := { s.apu with mix := { s.apu.mix with
            vinLeft := bit d 7
            leftVolume := BitVec.ofNat 3 (bits d 6 4)
            vinRight := bit d 3
            rightVolume := BitVec.ofNat 3 (bits d 2 0) } } }
      ∧ exec (.writeNr51 d) s
        = .next { s with apu := { s.apu with mix := { s.apu.mix with
            routeLeft := ⟨bit d (1 + 3), bit d (2 + 3), bit d (3 + 3), bit d (4 + 3)⟩
            routeRight := ⟨bit d (1 - 1), bit d (2 - 1), bit d (3 - 1), bit d (4 - 1)⟩ } } }
      ∧ (encode (.writeNr50 d)).toNat = 0x40FF2400 + d.toNat
      ∧ (encode (.writeNr51 d)).toNat = 0x40FF2500 + d.toNat

/-- 44_mixer R254: WRITE NR52 stores the power bit and nothing else; under `POWER_OFF_POLICY = refuse` it can only
set it, and a write with bit 7 clear is refused. The policy is the spec's own choice (D17). -/
def Obligations.WriteNr52StoresThePowerBit : Prop :=
  ∀ (d : Byte) (s : State), s.Running →
    (s.params.powerOff = .storeOnly ∨ bit d 7 = true →
        exec (.writeNr52 d) s = .next { s with apu := { s.apu with power := bit d 7 } })
      ∧ (s.params.powerOff = .refuse → bit d 7 = false →
        exec (.writeNr52 d) s = .refused (.powerOffUnmodelled (encode (.writeNr52 d))))
      ∧ (encode (.writeNr52 d)).toNat = 0x40FF2600 + d.toNat

/-- 44_mixer R262: a WRITE of an unused address of the window completes and changes nothing; the power gate covers
0xFF15 and 0xFF1F, not 0xFF27-0xFF2F (R261). It is the spec's own choice (D4, D17). -/
def Obligations.UnusedWritesChangeNothing : Prop :=
  ∀ (d : Byte) (j : BitVec 3) (s : State), s.Running →
    (s.AcceptsWrites → exec (.writeUnusedFf15 d) s = .next s ∧ exec (.writeUnusedFf1f d) s = .next s)
      ∧ exec (.writeUnusedFf27 d) s = .next s
      ∧ exec (.writeUnusedFf28To2f j d) s = .next s
      ∧ (encode (.writeUnusedFf15 d)).toNat = 0x40FF1500 + d.toNat
      ∧ (encode (.writeUnusedFf1f d)).toNat = 0x40FF1F00 + d.toNat
      ∧ (encode (.writeUnusedFf27 d)).toNat = 0x40FF2700 + d.toNat
      ∧ (encode (.writeUnusedFf28To2f j d)).toNat = 0x40FF2800 + 256 * j.toNat + d.toNat

/-- 44_mixer R251, R253, R256, R263, 41_wave R184: what the READs of the mixer registers, of the unused addresses and of the
wave RAM return, with the default read masks. The masks, the two Vin bits, the place of the status bits and the unused
addresses are the spec's own choices (D4, D6, D19, D24). -/
def Obligations.MixerUnusedAndWaveRamReads : Prop :=
  ∀ s : State, s.Running → s.params.readMask = Params.default.readMask →
    let a := s.apu
    let side (r : Routing) : Nat := r.ch1.toNat + 2 * r.ch2.toNat + 4 * r.ch3.toNat + 8 * r.ch4.toNat
    Answers .readNr50 s (BitVec.ofNat 8
        (128 * a.mix.vinLeft.toNat + 16 * a.mix.leftVolume.toNat + 8 * a.mix.vinRight.toNat + a.mix.rightVolume.toNat))
      ∧ Answers .readNr51 s (BitVec.ofNat 8 (16 * side a.mix.routeLeft + side a.mix.routeRight))
      ∧ Answers .readNr52 s (BitVec.ofNat 8 (128 * a.power.toNat + 0x70
        + (a.ch1.enabled.toNat + 2 * a.ch2.enabled.toNat + 4 * a.ch3.enabled.toNat + 8 * a.ch4.enabled.toNat)))
      ∧ Answers .readUnusedFf15 s 0xFF#8 ∧ Answers .readUnusedFf1f s 0xFF#8 ∧ Answers .readUnusedFf27 s 0xFF#8
      ∧ (∀ j, Answers (.readUnusedFf28To2f j) s 0xFF#8)
      ∧ (∀ i, Answers (.readWave i) s (Memory.read a.ch3.waveRam (0xFF30 + i.toNat)))
      ∧ [Instr.readNr50, .readNr51, .readNr52, .readUnusedFf15, .readUnusedFf1f, .readUnusedFf27].map encode
        = [0x00FF2400#32, 0x00FF2500#32, 0x00FF2600#32, 0x00FF1500#32, 0x00FF1F00#32, 0x00FF2700#32]
      ∧ (∀ j, (encode (.readUnusedFf28To2f j)).toNat = 0x00FF2800 + 256 * j.toNat)
      ∧ ∀ i, (encode (.readWave i)).toNat = 0x00FF3000 + 256 * i.toNat

/-- 44_mixer R255, R257, R258, R259 (00_scope R14, 40_pulse R135, 41_wave R185, 42_noise R214): the pair SAMPLE
hands to the host, for every value of the tables, and that it changes nothing else. The gate, the exact rationals
and that it changes nothing are the spec's own choices (D12, D13, D27); the replies list is the model's (log entry
3). -/
def Obligations.SampleGivesTheMixedPair : Prop :=
  ∀ s : State, s.Running →
    let a := s.apu
    let pulse (c : Pulse) : Nat :=
      if (s.params.dutyTable[c.duty.toNat]'c.duty.isLt)[c.dutyIdx.toNat]'c.dutyIdx.isLt then c.volume else 0
    let wave : Nat := a.ch3.sampleBuffer.toNat / 2 ^ (s.params.waveShiftTable[a.ch3.volumeCode.toNat]'a.ch3.volumeCode.isLt)
    let noise : Nat := if a.ch4.lfsr.toNat % 2 = 1 then 0 else a.ch4.volume
    let out (enabled : Bool) (v : Nat) : Rat := if enabled then (v : Rat) / (15 / 2) - 1 else 0
    let side (r : Routing) (code : BitVec 3) : Rat :=
      ((if r.ch1 then out a.ch1.enabled (pulse a.ch1) else 0) + (if r.ch2 then out a.ch2.enabled (pulse a.ch2) else 0)
          + (if r.ch3 then out a.ch3.enabled wave else 0) + (if r.ch4 then out a.ch4.enabled noise else 0))
        * (((code.toNat : Rat) + 1) / 8)
    exec .sample s
        = .next { s with host := { s.host with
            replies := .pair (side a.mix.routeLeft a.mix.leftVolume) (side a.mix.routeRight a.mix.rightVolume)
              :: s.host.replies } }
      ∧ encode .sample = 0xC0000000#32

/-- 44_mixer R260: each side of a SAMPLE lies in [−4, 4] and reaches the ends unclipped, and a side no channel is
routed to is exactly 0, whatever the channels do. The spec derives it (R260). -/
def Obligations.SampleStaysWithinFour : Prop :=
  (∀ s t : State, s.Inv → exec .sample s = .next t →
    ∃ l r, t.host.replies = .pair l r :: s.host.replies
      ∧ (-4 ≤ l ∧ l ≤ 4) ∧ (-4 ≤ r ∧ r ≤ 4)
      ∧ (s.apu.mix.routeLeft = ⟨false, false, false, false⟩ → l = 0)
      ∧ (s.apu.mix.routeRight = ⟨false, false, false, false⟩ → r = 0))
    ∧ ∀ s : State, s.Running →
      s.apu.ch1.enabled = true → s.apu.ch2.enabled = true → s.apu.ch3.enabled = true → s.apu.ch4.enabled = true →
      s.apu.ch1.digital s.params = 0 → s.apu.ch2.digital s.params = 0 → s.apu.ch3.digital s.params = 0 →
      s.apu.ch4.digital = 0 → s.apu.mix.routeLeft = ⟨true, true, true, true⟩ →
      s.apu.mix.routeRight = ⟨true, true, true, true⟩ → s.apu.mix.leftVolume = 7#3 → s.apu.mix.rightVolume = 7#3 →
      exec .sample s = .next { s with host := { s.host with replies := .pair (-4) (-4) :: s.host.replies } }

/-! ## Reads and writes together -/

/-- 30_encoding R92, for every value of `READ_MASK`: a READ of the window returns a byte with every mask bit set.
The mask values are the spec's own choice (D6), and nothing rests on them. -/
def Obligations.MaskBitsReadOne : Prop :=
  ∀ (i : Instr) (a : Addr) (s : State), s.Running → i.WellFormed → IsRead i → i.addr? = some a → inWindow a = true →
    ∃ b, Answers i s b ∧ ∀ k : Fin 48, a.toNat = 0xFF10 + k.val → b ||| s.params.readMask[k] = b

/-- 20_memory R75, 30_encoding R92: a READ after a WRITE of the same address of the window returns the written fields,
the other bits set. NR30 returns `ch3.enabled` and not the written DAC bit (41_wave R176), NR52 the power bit and the
four flags (44_mixer R256), an unused address 0xFF. The masks, the place of the status bits and the unused addresses are
the spec's own choices (D4, D6, D24); the canonical form of the wave RAM is the model's (log entry 10). -/
def Obligations.ReadAfterWriteReturnsTheFields : Prop :=
  ∀ (d : Byte) (s : State), s.Running → s.AcceptsWrites → s.params.readMask = Params.default.readMask →
    (WriteThenRead (.writeNr10 d) .readNr10 s (d ||| 0x80#8) ∧ WriteThenRead (.writeNr11 d) .readNr11 s (d ||| 0x3F#8)
        ∧ WriteThenRead (.writeNr12 d) .readNr12 s d ∧ WriteThenRead (.writeNr13 d) .readNr13 s 0xFF#8
        ∧ WriteThenRead (.writeNr14 d) .readNr14 s (d ||| 0xBF#8))
      ∧ (WriteThenRead (.writeNr21 d) .readNr21 s (d ||| 0x3F#8) ∧ WriteThenRead (.writeNr22 d) .readNr22 s d
        ∧ WriteThenRead (.writeNr23 d) .readNr23 s 0xFF#8 ∧ WriteThenRead (.writeNr24 d) .readNr24 s (d ||| 0xBF#8))
      ∧ (WriteThenRead (.writeNr31 d) .readNr31 s 0xFF#8 ∧ WriteThenRead (.writeNr32 d) .readNr32 s (d ||| 0x9F#8)
        ∧ WriteThenRead (.writeNr33 d) .readNr33 s 0xFF#8 ∧ WriteThenRead (.writeNr34 d) .readNr34 s (d ||| 0xBF#8))
      ∧ (WriteThenRead (.writeNr41 d) .readNr41 s 0xFF#8 ∧ WriteThenRead (.writeNr42 d) .readNr42 s d
        ∧ WriteThenRead (.writeNr43 d) .readNr43 s d ∧ WriteThenRead (.writeNr44 d) .readNr44 s (d ||| 0xBF#8))
      ∧ (WriteThenRead (.writeNr50 d) .readNr50 s d ∧ WriteThenRead (.writeNr51 d) .readNr51 s d)
      ∧ WriteThenRead (.writeNr30 d) .readNr30 s (BitVec.ofNat 8 (0x7F + 128 * (bit d 7 && s.apu.ch3.enabled).toNat))
      ∧ (s.params.powerOff = .storeOnly ∨ bit d 7 = true →
        WriteThenRead (.writeNr52 d) .readNr52 s (BitVec.ofNat 8 (128 * (bit d 7).toNat + 0x70
          + (s.apu.ch1.enabled.toNat + 2 * s.apu.ch2.enabled.toNat + 4 * s.apu.ch3.enabled.toNat
            + 8 * s.apu.ch4.enabled.toNat))))
      ∧ (WriteThenRead (.writeUnusedFf15 d) .readUnusedFf15 s 0xFF#8
        ∧ WriteThenRead (.writeUnusedFf1f d) .readUnusedFf1f s 0xFF#8
        ∧ WriteThenRead (.writeUnusedFf27 d) .readUnusedFf27 s 0xFF#8
        ∧ ∀ j, WriteThenRead (.writeUnusedFf28To2f j d) (.readUnusedFf28To2f j) s 0xFF#8)
      ∧ (Memory.wf s.apu.ch3.waveRam = true → ∀ i, WriteThenRead (.writeWave i d) (.readWave i) s d)

/-- 20_memory R69: every WRITE that triggers no channel is idempotent. The spec derives it (R69); the canonical form of
the wave RAM is the model's (log entry 10). -/
def Obligations.NonTriggerWritesAreIdempotent : Prop :=
  ∀ (i : Instr) (s t : State), IsWrite i → triggersChannel i = false → Memory.wf s.apu.ch3.waveRam = true →
    exec i s = .next t → exec i t = .next t

/-! ## Refusals and faults -/

/-- 60_exceptions R284: exactly when `PowerOffUnmodelled` is the refusal, and with which word. It is the spec's own
choice (D17). -/
def Obligations.PowerGateRefusesExactlyTheseWrites : Prop :=
  ∀ (i : Instr) (s : State) (w : Word), s.Running → i.WellFormed →
    (exec i s = .refused (.powerOffUnmodelled w)
      ↔ s.params.powerOff = .refuse ∧ w = encode i ∧ IsWrite i
        ∧ ((s.apu.power = false ∧ ∃ a, i.addr? = some a ∧ 0xFF10 ≤ a.toNat ∧ a.toNat ≤ 0xFF25)
          ∨ ∃ d, i = .writeNr52 d ∧ bit d 7 = false))

/-- 60_exceptions R281: an access outside the window faults with its address, or, under `BUS_RANGE_POLICY = ignore`,
a WRITE changes nothing and a READ hands the host a free byte, about which nothing is said. It is the spec's own
choice (D3); the free byte is the model's (log entry 4). -/
def Obligations.OutOfWindowFaultsOrIsIgnored : Prop :=
  ∀ (a : Addr) (d : Byte) (s : State), s.Running →
    (s.params.busRange = .fault →
        exec (.writeOutOfWindow a d) s = .fault (.busRange a) ∧ exec (.readOutOfWindow a) s = .fault (.busRange a))
      ∧ (s.params.busRange = .ignore →
        exec (.writeOutOfWindow a d) s = .next s
          ∧ exec (.readOutOfWindow a) s
            = .next { s with host := { s.host with
                replies := .byte (Config.freeByte s.host.draws) :: s.host.replies
                draws := s.host.draws + 1 } })

/-- 60_exceptions R282, R286: `SweepOverflow` is raised only by STEP, only under `SWEEP_OVERFLOW = fault`, only by
an addition above 2047, and records that sum; `BusRange` only by an access outside the window; and no meaning raises
any other stop than these and the power refusal. The stops are the spec's own choices (D3, D15, D17). -/
def Obligations.EveryStopHasItsCause : Prop :=
  ∀ (i : Instr) (s : State), s.Running →
    (∀ nf, exec i s = .fault (.sweepOverflow nf) →
        i = .step ∧ s.params.sweepOverflow = .fault ∧ s.SweepDue ∧ s.apu.sweep.sweepDirection = false
          ∧ nf = s.sweepSum ∧ 2047 < nf)
      ∧ (∀ a, exec i s = .fault (.busRange a) →
        s.params.busRange = .fault ∧ ((∃ d, i = .writeOutOfWindow a d) ∨ i = .readOutOfWindow a))
      ∧ ∀ r, exec i s = .refused r → r = .powerOffUnmodelled (encode i) ∧ s.params.powerOff = .refuse
end

