-- ==== Sys2Proof/Laws/Decode.lean ====
section
/-! SUPPORT. The operation word and its fields determine each other, and so does an address of a block of them. -/

namespace Sys2Proof

/-- Concatenation as arithmetic (00_scope R10: the left operand in the high bits). -/
theorem append_toNat {n m : Nat} (x : BitVec n) (y : BitVec m) : (x ++ y).toNat = x.toNat * 2 ^ m + y.toNat := by
  rw [BitVec.toNat_append, ← Nat.shiftLeft_add_eq_or_of_lt y.isLt, Nat.shiftLeft_eq]

theorem mkWord_toNat (op : BitVec 2) (z : BitVec 6) (a : Addr) (d : Byte) :
    (mkWord op z a d).toNat = op.toNat * 2 ^ 30 + z.toNat * 2 ^ 24 + a.toNat * 2 ^ 8 + d.toNat := by
  simp only [mkWord, append_toNat]
  omega

theorem opField_toNat (w : Word) : (opField w).toNat = w.toNat / 2 ^ 30 := by
  have := w.isLt
  simp only [opField, BitVec.extractLsb'_toNat, Nat.shiftRight_eq_div_pow]
  omega

theorem zField_toNat (w : Word) : (zField w).toNat = w.toNat / 2 ^ 24 % 2 ^ 6 := by
  simp only [zField, BitVec.extractLsb'_toNat, Nat.shiftRight_eq_div_pow]

theorem addrField_toNat (w : Word) : (addrField w).toNat = w.toNat / 2 ^ 8 % 2 ^ 16 := by
  simp only [addrField, BitVec.extractLsb'_toNat, Nat.shiftRight_eq_div_pow]

theorem dataField_toNat (w : Word) : (dataField w).toNat = w.toNat % 2 ^ 8 := by
  simp only [dataField, BitVec.extractLsb'_toNat, Nat.shiftRight_eq_div_pow, pow_zero, Nat.div_one]

@[simp] theorem opField_mkWord (op : BitVec 2) (z : BitVec 6) (a : Addr) (d : Byte) :
    opField (mkWord op z a d) = op := by
  apply BitVec.eq_of_toNat_eq
  have := d.isLt
  have := a.isLt
  have := z.isLt
  rw [opField_toNat, mkWord_toNat]
  omega

@[simp] theorem zField_mkWord (op : BitVec 2) (z : BitVec 6) (a : Addr) (d : Byte) :
    zField (mkWord op z a d) = z := by
  apply BitVec.eq_of_toNat_eq
  have := d.isLt
  have := a.isLt
  have := z.isLt
  rw [zField_toNat, mkWord_toNat]
  omega

@[simp] theorem addrField_mkWord (op : BitVec 2) (z : BitVec 6) (a : Addr) (d : Byte) :
    addrField (mkWord op z a d) = a := by
  apply BitVec.eq_of_toNat_eq
  have := d.isLt
  have := a.isLt
  rw [addrField_toNat, mkWord_toNat]
  omega

@[simp] theorem dataField_mkWord (op : BitVec 2) (z : BitVec 6) (a : Addr) (d : Byte) :
    dataField (mkWord op z a d) = d := by
  apply BitVec.eq_of_toNat_eq
  have := d.isLt
  rw [dataField_toNat, mkWord_toNat]
  omega

/-- A word is made of its four fields. -/
theorem mkWord_fields (w : Word) : mkWord (opField w) (zField w) (addrField w) (dataField w) = w := by
  apply BitVec.eq_of_toNat_eq
  have := w.isLt
  rw [mkWord_toNat, opField_toNat, zField_toNat, addrField_toNat, dataField_toNat]
  omega

/-- The decoder on a READ word. -/
theorem decode_readWord (a : Addr) : decode (mkWord 0b00#2 0#6 a 0#8) = .ok (readAt a) := by
  simp [decode]

/-- The decoder on a WRITE word. -/
theorem decode_writeWord (a : Addr) (d : Byte) : decode (mkWord 0b01#2 0#6 a d) = .ok (writeAt a d) := by
  simp [decode]

/-- The bus address of wave-RAM byte `i`. -/
theorem waveAddress_toNat (i : BitVec 4) : (0xFF3#12 ++ i).toNat = 0xFF30 + i.toNat := append_toNat _ _

/-- The bus address of the unused byte 0xFF28 + `j`. -/
theorem unusedAddress_toNat (j : BitVec 3) : (0x1FE5#13 ++ j).toNat = 0xFF28 + j.toNat := append_toNat _ _

/-! ## The rows of the addresses that are not one register's -/

theorem addr_ne {a b : Addr} (h : a.toNat ≠ b.toNat) : a ≠ b := fun e => h (congrArg BitVec.toNat e)

theorem high13_toNat (a : Addr) : (a.extractLsb' 3 13).toNat = a.toNat / 8 := by
  have := a.isLt
  rw [BitVec.extractLsb'_toNat, Nat.shiftRight_eq_div_pow]
  omega

theorem high12_toNat (a : Addr) : (a.extractLsb' 4 12).toNat = a.toNat / 16 := by
  have := a.isLt
  rw [BitVec.extractLsb'_toNat, Nat.shiftRight_eq_div_pow]
  omega

theorem low3_unused (j : BitVec 3) : (0x1FE5#13 ++ j).extractLsb' 0 3 = j := by
  apply BitVec.eq_of_toNat_eq
  have := j.isLt
  rw [BitVec.extractLsb'_toNat, Nat.shiftRight_eq_div_pow, unusedAddress_toNat]
  omega

theorem low4_wave (i : BitVec 4) : (0xFF3#12 ++ i).extractLsb' 0 4 = i := by
  apply BitVec.eq_of_toNat_eq
  have := i.isLt
  rw [BitVec.extractLsb'_toNat, Nat.shiftRight_eq_div_pow, waveAddress_toNat]
  omega

/-- From 0xFF28 on, and below 0xFF10, the rows are by the address's high bits. -/
theorem readAt_high {a : Addr} (h : a.toNat < 0xFF10 ∨ 0xFF28 ≤ a.toNat) :
    readAt a = if a.extractLsb' 3 13 = 0x1FE5#13 then .readUnusedFf28To2f (a.extractLsb' 0 3)
      else if a.extractLsb' 4 12 = 0xFF3#12 then .readWave (a.extractLsb' 0 4) else .readOutOfWindow a := by
  have ne : ∀ b : Addr, 0xFF10 ≤ b.toNat ∧ b.toNat < 0xFF28 → a ≠ b := fun b hb => addr_ne (by omega)
  unfold readAt
  repeat rw [if_neg (ne _ (by decide))]

theorem writeAt_high {a : Addr} (d : Byte) (h : a.toNat < 0xFF10 ∨ 0xFF28 ≤ a.toNat) :
    writeAt a d = if a.extractLsb' 3 13 = 0x1FE5#13 then .writeUnusedFf28To2f (a.extractLsb' 0 3) d
      else if a.extractLsb' 4 12 = 0xFF3#12 then .writeWave (a.extractLsb' 0 4) d else .writeOutOfWindow a d := by
  have ne : ∀ b : Addr, 0xFF10 ≤ b.toNat ∧ b.toNat < 0xFF28 → a ≠ b := fun b hb => addr_ne (by omega)
  unfold writeAt
  repeat rw [if_neg (ne _ (by decide))]

theorem unused_high (j : BitVec 3) : (0x1FE5#13 ++ j).extractLsb' 3 13 = 0x1FE5#13 := by
  apply BitVec.eq_of_toNat_eq
  have := j.isLt
  rw [high13_toNat, unusedAddress_toNat]
  simp only [BitVec.toNat_ofNat]
  omega

theorem wave_high (i : BitVec 4) : (0xFF3#12 ++ i).extractLsb' 4 12 = 0xFF3#12 := by
  apply BitVec.eq_of_toNat_eq
  have := i.isLt
  rw [high12_toNat, waveAddress_toNat]
  simp only [BitVec.toNat_ofNat]
  omega

theorem wave_not_unused (i : BitVec 4) : (0xFF3#12 ++ i).extractLsb' 3 13 ≠ 0x1FE5#13 := by
  intro h
  have := congrArg BitVec.toNat h
  rw [high13_toNat, waveAddress_toNat] at this
  simp only [BitVec.toNat_ofNat] at this
  omega

/-- The row of the unused address 0xFF28 + `j`. -/
theorem readAt_unused (j : BitVec 3) : readAt (0x1FE5#13 ++ j) = .readUnusedFf28To2f j := by
  rw [readAt_high (by rw [unusedAddress_toNat]; omega), if_pos (unused_high j), low3_unused]

theorem writeAt_unused (j : BitVec 3) (d : Byte) : writeAt (0x1FE5#13 ++ j) d = .writeUnusedFf28To2f j d := by
  rw [writeAt_high d (by rw [unusedAddress_toNat]; omega), if_pos (unused_high j), low3_unused]

/-- The row of wave-RAM byte `i`. -/
theorem readAt_wave (i : BitVec 4) : readAt (0xFF3#12 ++ i) = .readWave i := by
  rw [readAt_high (by rw [waveAddress_toNat]; omega), if_neg (wave_not_unused i), if_pos (wave_high i), low4_wave]

theorem writeAt_wave (i : BitVec 4) (d : Byte) : writeAt (0xFF3#12 ++ i) d = .writeWave i d := by
  rw [writeAt_high d (by rw [waveAddress_toNat]; omega), if_neg (wave_not_unused i), if_pos (wave_high i), low4_wave]

theorem not_inWindow_iff {a : Addr} : inWindow a = false ↔ a.toNat < 0xFF10 ∨ 0xFF3F < a.toNat := by
  simp only [inWindow, Bool.and_eq_false_iff, decide_eq_false_iff_not]
  omega

theorem outside_high {a : Addr} (h : inWindow a = false) :
    a.extractLsb' 3 13 ≠ 0x1FE5#13 ∧ a.extractLsb' 4 12 ≠ 0xFF3#12 := by
  have hw := not_inWindow_iff.1 h
  constructor
  · intro e
    have := congrArg BitVec.toNat e
    rw [high13_toNat] at this
    simp only [BitVec.toNat_ofNat] at this
    omega
  · intro e
    have := congrArg BitVec.toNat e
    rw [high12_toNat] at this
    simp only [BitVec.toNat_ofNat] at this
    omega

/-- The row of an address outside the window. -/
theorem readAt_outside {a : Addr} (h : inWindow a = false) : readAt a = .readOutOfWindow a := by
  have hw := not_inWindow_iff.1 h
  rw [readAt_high (by omega), if_neg (outside_high h).1, if_neg (outside_high h).2]

theorem writeAt_outside {a : Addr} (d : Byte) (h : inWindow a = false) : writeAt a d = .writeOutOfWindow a d := by
  have hw := not_inWindow_iff.1 h
  rw [writeAt_high d (by omega), if_neg (outside_high h).1, if_neg (outside_high h).2]

/-- Every address is outside the window, or one of the three ranges of the opcode map (30_encoding R90). -/
theorem addr_cases (a : Addr) :
    (a.toNat < 0xFF10 ∨ 0xFF3F < a.toNat) ∨ (∃ n : Fin 24, a = BitVec.ofNat 16 (0xFF10 + n))
      ∨ (∃ j : BitVec 3, a = 0x1FE5#13 ++ j) ∨ ∃ i : BitVec 4, a = 0xFF3#12 ++ i := by
  by_cases h1 : a.toNat < 0xFF10 ∨ 0xFF3F < a.toNat
  · exact .inl h1
  by_cases h2 : a.toNat < 0xFF28
  · refine .inr (.inl ⟨⟨a.toNat - 0xFF10, by omega⟩, BitVec.eq_of_toNat_eq ?_⟩)
    simp
    omega
  by_cases h3 : a.toNat < 0xFF30
  · refine .inr (.inr (.inl ⟨BitVec.ofNat 3 (a.toNat - 0xFF28), BitVec.eq_of_toNat_eq ?_⟩))
    rw [unusedAddress_toNat]
    simp
    omega
  · refine .inr (.inr (.inr ⟨BitVec.ofNat 4 (a.toNat - 0xFF30), BitVec.eq_of_toNat_eq ?_⟩))
    rw [waveAddress_toNat]
    simp
    omega

end Sys2Proof
end

