-- ==== Sys2Proof/Laws/Memory.lean ====
section
/-! SUPPORT. The wave RAM's laws: a read after a write, and that every write keeps the canonical form and the address range. -/

namespace Sys2Proof.Machine

theorem Memory.read_cons_self (a : Nat) (v : Byte) (m : Memory) (h : Memory.above a m = true) :
    Memory.read (Memory.cons a v m) a = v := by
  have unlisted : ∀ m : Memory, Memory.above a m = true → Memory.read m a = Config.unlistedByte := by
    intro m
    induction m with
    | nil => intro _; rfl
    | cons c m ih =>
      intro h
      simp only [Memory.above, List.all_cons, Bool.and_eq_true, decide_eq_true_eq] at h
      simp only [Memory.read]
      rw [if_neg (by omega)]
      exact ih h.2
  unfold Memory.cons
  split
  · next hv => rw [hv]; exact unlisted m h
  · simp [Memory.read]

theorem Memory.read_cons_other {a b : Nat} (v : Byte) (m : Memory) (h : b ≠ a) :
    Memory.read (Memory.cons a v m) b = Memory.read m b := by
  unfold Memory.cons
  split
  · rfl
  · simp [Memory.read, h]

theorem Memory.above_mono {a b : Nat} (hab : a ≤ b) {m : Memory} (h : Memory.above b m = true) :
    Memory.above a m = true := by
  simp only [Memory.above, List.all_eq_true, decide_eq_true_eq] at *
  intro c hc
  have := h c hc
  omega

theorem Memory.above_cons {a b : Nat} (v : Byte) {m : Memory} (h : Memory.above b m = true) (hab : b < a) :
    Memory.above b (Memory.cons a v m) = true := by
  unfold Memory.cons
  split
  · exact h
  · simp only [Memory.above, List.all_cons, Bool.and_eq_true, decide_eq_true_eq] at *
    exact ⟨hab, h⟩

theorem Memory.above_write {a b : Nat} (v : Byte) {m : Memory} (h : Memory.above b m = true) (hab : b < a) :
    Memory.above b (Memory.write m a v) = true := by
  induction m with
  | nil => exact Memory.above_cons v h hab
  | cons c m ih =>
    have hm : b < c.1 ∧ Memory.above b m = true := by
      simpa only [Memory.above, List.all_cons, Bool.and_eq_true, decide_eq_true_eq] using h
    simp only [Memory.write]
    split
    · exact Memory.above_cons v h hab
    · split
      · exact Memory.above_cons v hm.2 hab
      · simp only [Memory.above, List.all_cons, Bool.and_eq_true, decide_eq_true_eq]
        exact ⟨hm.1, ih hm.2⟩

theorem Memory.wf_cons {a : Nat} (v : Byte) {m : Memory} (h : Memory.wf m = true) (ha : Memory.above a m = true) :
    Memory.wf (Memory.cons a v m) = true := by
  unfold Memory.cons
  split
  · exact h
  · next hv => simp [Memory.wf, h, ha, hv]

/-- A read of the address just written gives the byte written. -/
theorem Memory.read_write_self (m : Memory) (a : Nat) (v : Byte) (h : Memory.wf m = true) :
    Memory.read (Memory.write m a v) a = v := by
  induction m with
  | nil => exact Memory.read_cons_self a v [] rfl
  | cons c m ih =>
    have hw : c.2 ≠ Config.unlistedByte ∧ Memory.above c.1 m = true ∧ Memory.wf m = true := by
      simpa [Memory.wf, and_assoc] using h
    simp only [Memory.write]
    split
    · next hlt =>
      refine Memory.read_cons_self a v _ ?_
      simp only [Memory.above, List.all_cons, Bool.and_eq_true, decide_eq_true_eq]
      exact ⟨hlt, Memory.above_mono (Nat.le_of_lt hlt) hw.2.1⟩
    · split
      · next heq => subst heq; exact Memory.read_cons_self _ v m hw.2.1
      · next hne =>
        simp only [Memory.read]
        rw [if_neg hne]
        exact ih hw.2.2

/-- A write leaves every other address alone. -/
theorem Memory.read_write_other (m : Memory) {a b : Nat} (v : Byte) (h : b ≠ a) :
    Memory.read (Memory.write m a v) b = Memory.read m b := by
  induction m with
  | nil => exact Memory.read_cons_other v [] h
  | cons c m ih =>
    simp only [Memory.write]
    split
    · exact Memory.read_cons_other v _ h
    · split
      · next heq =>
        rw [Memory.read_cons_other v m h]
        simp only [Memory.read]
        rw [if_neg (by omega)]
      · simp only [Memory.read, ih]

/-- A write keeps the canonical form. -/
theorem Memory.wf_write {m : Memory} (a : Nat) (v : Byte) (h : Memory.wf m = true) :
    Memory.wf (Memory.write m a v) = true := by
  induction m with
  | nil => exact Memory.wf_cons v h rfl
  | cons c m ih =>
    have hw : c.2 ≠ Config.unlistedByte ∧ Memory.above c.1 m = true ∧ Memory.wf m = true := by
      simpa [Memory.wf, and_assoc] using h
    simp only [Memory.write]
    split
    · next hlt =>
      refine Memory.wf_cons v h ?_
      simp only [Memory.above, List.all_cons, Bool.and_eq_true, decide_eq_true_eq]
      exact ⟨hlt, Memory.above_mono (Nat.le_of_lt hlt) hw.2.1⟩
    · split
      · next heq => subst heq; exact Memory.wf_cons v hw.2.2 hw.2.1
      · next hlt hne =>
        simp [Memory.wf, hw.1, ih hw.2.2, Memory.above_write v hw.2.1 (show c.1 < a by omega)]

/-- A write within the wave RAM keeps the address range. -/
theorem Memory.inWaveRam_write {m : Memory} {a : Nat} (v : Byte) (ha : 0xFF30 ≤ a ∧ a ≤ 0xFF3F)
    (h : Memory.inWaveRam m = true) : Memory.inWaveRam (Memory.write m a v) = true := by
  have hc : ∀ m : Memory, Memory.inWaveRam m = true → Memory.inWaveRam (Memory.cons a v m) = true := by
    intro m hm
    unfold Memory.cons
    split
    · exact hm
    · simpa [Memory.inWaveRam, ha.1, ha.2] using hm
  induction m with
  | nil => exact hc _ h
  | cons c m ih =>
    have hm : (0xFF30 ≤ c.1 ∧ c.1 ≤ 0xFF3F) ∧ Memory.inWaveRam m = true := by
      simpa only [Memory.inWaveRam, List.all_cons, Bool.and_eq_true, decide_eq_true_eq] using h
    simp only [Memory.write]
    split
    · exact hc _ h
    · split
      · exact hc _ hm.2
      · simp only [Memory.inWaveRam, List.all_cons, Bool.and_eq_true, decide_eq_true_eq]
        exact ⟨hm.1, ih hm.2⟩

/-- Equal reads at every address make canonical memories equal: the form is one for one. -/
theorem Memory.ext_of_wf {m n : Memory} (hm : Memory.wf m = true) (hn : Memory.wf n = true)
    (h : ∀ a, Memory.read m a = Memory.read n a) : m = n := by
  have unlisted : ∀ {m : Memory} {a : Nat}, Memory.above a m = true → Memory.read m a = Config.unlistedByte := by
    intro m a
    induction m with
    | nil => intro _; rfl
    | cons c m ih =>
      intro h
      simp only [Memory.above, List.all_cons, Bool.and_eq_true, decide_eq_true_eq] at h
      simp only [Memory.read]
      rw [if_neg (by omega)]
      exact ih h.2
  have head : ∀ (c : Host.Cell) (m : Memory), Memory.read (c :: m) c.1 = c.2 := by intro c m; simp [Memory.read]
  induction m generalizing n with
  | nil =>
    cases n with
    | nil => rfl
    | cons c n =>
      have hw : c.2 ≠ Config.unlistedByte ∧ Memory.above c.1 n = true ∧ Memory.wf n = true := by
        simpa [Memory.wf, and_assoc] using hn
      exact absurd ((head c n).symm.trans (h c.1).symm) hw.1
  | cons c m ih =>
    have hc : c.2 ≠ Config.unlistedByte ∧ Memory.above c.1 m = true ∧ Memory.wf m = true := by
      simpa [Memory.wf, and_assoc] using hm
    cases n with
    | nil => exact absurd ((head c m).symm.trans (h c.1)) hc.1
    | cons e n =>
      have he : e.2 ≠ Config.unlistedByte ∧ Memory.above e.1 n = true ∧ Memory.wf n = true := by
        simpa [Memory.wf, and_assoc] using hn
      have below : ∀ {x y : Host.Cell} {p q : Memory}, x.2 ≠ Config.unlistedByte → x.1 < y.1 →
          Memory.above y.1 q = true → Memory.read (x :: p) x.1 = Memory.read (y :: q) x.1 → False := by
        intro x y p q hx hlt hq hr
        rw [head] at hr
        simp only [Memory.read] at hr
        rw [if_neg (by omega), unlisted (Memory.above_mono (Nat.le_of_lt hlt) hq)] at hr
        exact hx hr
      have h1 : c.1 = e.1 := by
        rcases Nat.lt_trichotomy c.1 e.1 with hlt | heq | hgt
        · exact (below hc.1 hlt he.2.1 (h c.1)).elim
        · exact heq
        · exact (below he.1 hgt hc.2.1 (h e.1).symm).elim
      have h2 : c.2 = e.2 := by rw [← head c m, h c.1, h1, head]
      have hce : c = e := Prod.ext h1 h2
      subst hce
      rw [ih hc.2.2 he.2.2]
      intro a
      by_cases ha : a = c.1
      · subst ha; rw [unlisted hc.2.1, unlisted he.2.1]
      · have := h a
        simpa only [Memory.read, if_neg ha] using this

/-- The wave RAM after reset is in canonical form within its addresses. -/
theorem initialWaveRam_wf (init : List Byte) : Memory.wf (initialWaveRam init) = true := by
  suffices h : ∀ (l : List Byte) (k : Nat),
      Memory.wf ((l.zipIdx k).filterMap fun (b, a) => if b = Config.unlistedByte then none else some (a, b)) = true
      ∧ ∀ a < k, Memory.above a
        ((l.zipIdx k).filterMap fun (b, a) => if b = Config.unlistedByte then none else some (a, b)) = true from
    (h init 0xFF30).1
  intro l
  induction l with
  | nil => intro k; exact ⟨rfl, fun _ _ => rfl⟩
  | cons b l ih =>
    intro k
    obtain ⟨h1, h2⟩ := ih (k + 1)
    rw [List.zipIdx_cons, List.filterMap_cons]
    by_cases hb : b = Config.unlistedByte
    · simp only [if_pos hb]
      exact ⟨h1, fun a ha => h2 a (by omega)⟩
    · simp only [if_neg hb]
      refine ⟨?_, fun a ha => ?_⟩
      · simp only [Memory.wf, Bool.and_eq_true, decide_eq_true_eq]
        exact ⟨⟨hb, h2 k (by omega)⟩, h1⟩
      · simp only [Memory.above, List.all_cons, Bool.and_eq_true, decide_eq_true_eq]
        exact ⟨ha, h2 a (by omega)⟩

theorem initialWaveRam_inWaveRam (init : List Byte) (h : init.length ≤ 16) :
    Memory.inWaveRam (initialWaveRam init) = true := by
  simp only [Memory.inWaveRam, initialWaveRam, List.all_eq_true, List.mem_filterMap, Bool.and_eq_true,
    decide_eq_true_eq]
  rintro c ⟨⟨b, a⟩, hm, hc⟩
  have := List.mem_zipIdx hm
  dsimp only at hc
  split at hc
  · exact absurd hc (by simp)
  · cases hc
    dsimp only
    omega

end Sys2Proof.Machine
end

