-- ==== Sys2Proof/Laws/State.lean ====
section
/-! SUPPORT. What each update of the state reads as: one lemma for each update and field. -/

namespace Sys2Proof.Machine

@[simp] theorem Apu.mapCh1_ch1 (f : Pulse → Pulse) (a : Apu) : (a.mapCh1 f).ch1 = f a.ch1 := rfl
@[simp] theorem Apu.mapCh1_sweep (f : Pulse → Pulse) (a : Apu) : (a.mapCh1 f).sweep = a.sweep := rfl
@[simp] theorem Apu.mapCh1_ch2 (f : Pulse → Pulse) (a : Apu) : (a.mapCh1 f).ch2 = a.ch2 := rfl
@[simp] theorem Apu.mapCh1_ch3 (f : Pulse → Pulse) (a : Apu) : (a.mapCh1 f).ch3 = a.ch3 := rfl
@[simp] theorem Apu.mapCh1_ch4 (f : Pulse → Pulse) (a : Apu) : (a.mapCh1 f).ch4 = a.ch4 := rfl
@[simp] theorem Apu.mapCh1_fs (f : Pulse → Pulse) (a : Apu) : (a.mapCh1 f).fs = a.fs := rfl
@[simp] theorem Apu.mapCh1_mix (f : Pulse → Pulse) (a : Apu) : (a.mapCh1 f).mix = a.mix := rfl
@[simp] theorem Apu.mapCh1_power (f : Pulse → Pulse) (a : Apu) : (a.mapCh1 f).power = a.power := rfl
@[simp] theorem Apu.mapCh1_fault (f : Pulse → Pulse) (a : Apu) : (a.mapCh1 f).fault = a.fault := rfl
@[simp] theorem Apu.mapCh1_refusal (f : Pulse → Pulse) (a : Apu) : (a.mapCh1 f).refusal = a.refusal := rfl

@[simp] theorem Apu.mapSweep_ch1 (f : Sweep → Sweep) (a : Apu) : (a.mapSweep f).ch1 = a.ch1 := rfl
@[simp] theorem Apu.mapSweep_sweep (f : Sweep → Sweep) (a : Apu) : (a.mapSweep f).sweep = f a.sweep := rfl
@[simp] theorem Apu.mapSweep_ch2 (f : Sweep → Sweep) (a : Apu) : (a.mapSweep f).ch2 = a.ch2 := rfl
@[simp] theorem Apu.mapSweep_ch3 (f : Sweep → Sweep) (a : Apu) : (a.mapSweep f).ch3 = a.ch3 := rfl
@[simp] theorem Apu.mapSweep_ch4 (f : Sweep → Sweep) (a : Apu) : (a.mapSweep f).ch4 = a.ch4 := rfl
@[simp] theorem Apu.mapSweep_fs (f : Sweep → Sweep) (a : Apu) : (a.mapSweep f).fs = a.fs := rfl
@[simp] theorem Apu.mapSweep_mix (f : Sweep → Sweep) (a : Apu) : (a.mapSweep f).mix = a.mix := rfl
@[simp] theorem Apu.mapSweep_power (f : Sweep → Sweep) (a : Apu) : (a.mapSweep f).power = a.power := rfl
@[simp] theorem Apu.mapSweep_fault (f : Sweep → Sweep) (a : Apu) : (a.mapSweep f).fault = a.fault := rfl
@[simp] theorem Apu.mapSweep_refusal (f : Sweep → Sweep) (a : Apu) : (a.mapSweep f).refusal = a.refusal := rfl

@[simp] theorem Apu.mapCh2_ch1 (f : Pulse → Pulse) (a : Apu) : (a.mapCh2 f).ch1 = a.ch1 := rfl
@[simp] theorem Apu.mapCh2_sweep (f : Pulse → Pulse) (a : Apu) : (a.mapCh2 f).sweep = a.sweep := rfl
@[simp] theorem Apu.mapCh2_ch2 (f : Pulse → Pulse) (a : Apu) : (a.mapCh2 f).ch2 = f a.ch2 := rfl
@[simp] theorem Apu.mapCh2_ch3 (f : Pulse → Pulse) (a : Apu) : (a.mapCh2 f).ch3 = a.ch3 := rfl
@[simp] theorem Apu.mapCh2_ch4 (f : Pulse → Pulse) (a : Apu) : (a.mapCh2 f).ch4 = a.ch4 := rfl
@[simp] theorem Apu.mapCh2_fs (f : Pulse → Pulse) (a : Apu) : (a.mapCh2 f).fs = a.fs := rfl
@[simp] theorem Apu.mapCh2_mix (f : Pulse → Pulse) (a : Apu) : (a.mapCh2 f).mix = a.mix := rfl
@[simp] theorem Apu.mapCh2_power (f : Pulse → Pulse) (a : Apu) : (a.mapCh2 f).power = a.power := rfl
@[simp] theorem Apu.mapCh2_fault (f : Pulse → Pulse) (a : Apu) : (a.mapCh2 f).fault = a.fault := rfl
@[simp] theorem Apu.mapCh2_refusal (f : Pulse → Pulse) (a : Apu) : (a.mapCh2 f).refusal = a.refusal := rfl

@[simp] theorem Apu.mapCh3_ch1 (f : Wave → Wave) (a : Apu) : (a.mapCh3 f).ch1 = a.ch1 := rfl
@[simp] theorem Apu.mapCh3_sweep (f : Wave → Wave) (a : Apu) : (a.mapCh3 f).sweep = a.sweep := rfl
@[simp] theorem Apu.mapCh3_ch2 (f : Wave → Wave) (a : Apu) : (a.mapCh3 f).ch2 = a.ch2 := rfl
@[simp] theorem Apu.mapCh3_ch3 (f : Wave → Wave) (a : Apu) : (a.mapCh3 f).ch3 = f a.ch3 := rfl
@[simp] theorem Apu.mapCh3_ch4 (f : Wave → Wave) (a : Apu) : (a.mapCh3 f).ch4 = a.ch4 := rfl
@[simp] theorem Apu.mapCh3_fs (f : Wave → Wave) (a : Apu) : (a.mapCh3 f).fs = a.fs := rfl
@[simp] theorem Apu.mapCh3_mix (f : Wave → Wave) (a : Apu) : (a.mapCh3 f).mix = a.mix := rfl
@[simp] theorem Apu.mapCh3_power (f : Wave → Wave) (a : Apu) : (a.mapCh3 f).power = a.power := rfl
@[simp] theorem Apu.mapCh3_fault (f : Wave → Wave) (a : Apu) : (a.mapCh3 f).fault = a.fault := rfl
@[simp] theorem Apu.mapCh3_refusal (f : Wave → Wave) (a : Apu) : (a.mapCh3 f).refusal = a.refusal := rfl

@[simp] theorem Apu.mapCh4_ch1 (f : Noise → Noise) (a : Apu) : (a.mapCh4 f).ch1 = a.ch1 := rfl
@[simp] theorem Apu.mapCh4_sweep (f : Noise → Noise) (a : Apu) : (a.mapCh4 f).sweep = a.sweep := rfl
@[simp] theorem Apu.mapCh4_ch2 (f : Noise → Noise) (a : Apu) : (a.mapCh4 f).ch2 = a.ch2 := rfl
@[simp] theorem Apu.mapCh4_ch3 (f : Noise → Noise) (a : Apu) : (a.mapCh4 f).ch3 = a.ch3 := rfl
@[simp] theorem Apu.mapCh4_ch4 (f : Noise → Noise) (a : Apu) : (a.mapCh4 f).ch4 = f a.ch4 := rfl
@[simp] theorem Apu.mapCh4_fs (f : Noise → Noise) (a : Apu) : (a.mapCh4 f).fs = a.fs := rfl
@[simp] theorem Apu.mapCh4_mix (f : Noise → Noise) (a : Apu) : (a.mapCh4 f).mix = a.mix := rfl
@[simp] theorem Apu.mapCh4_power (f : Noise → Noise) (a : Apu) : (a.mapCh4 f).power = a.power := rfl
@[simp] theorem Apu.mapCh4_fault (f : Noise → Noise) (a : Apu) : (a.mapCh4 f).fault = a.fault := rfl
@[simp] theorem Apu.mapCh4_refusal (f : Noise → Noise) (a : Apu) : (a.mapCh4 f).refusal = a.refusal := rfl

@[simp] theorem Apu.setFs_ch1 (v : FrameSequencer) (a : Apu) : (a.setFs v).ch1 = a.ch1 := rfl
@[simp] theorem Apu.setFs_sweep (v : FrameSequencer) (a : Apu) : (a.setFs v).sweep = a.sweep := rfl
@[simp] theorem Apu.setFs_ch2 (v : FrameSequencer) (a : Apu) : (a.setFs v).ch2 = a.ch2 := rfl
@[simp] theorem Apu.setFs_ch3 (v : FrameSequencer) (a : Apu) : (a.setFs v).ch3 = a.ch3 := rfl
@[simp] theorem Apu.setFs_ch4 (v : FrameSequencer) (a : Apu) : (a.setFs v).ch4 = a.ch4 := rfl
@[simp] theorem Apu.setFs_fs (v : FrameSequencer) (a : Apu) : (a.setFs v).fs = v := rfl
@[simp] theorem Apu.setFs_mix (v : FrameSequencer) (a : Apu) : (a.setFs v).mix = a.mix := rfl
@[simp] theorem Apu.setFs_power (v : FrameSequencer) (a : Apu) : (a.setFs v).power = a.power := rfl
@[simp] theorem Apu.setFs_fault (v : FrameSequencer) (a : Apu) : (a.setFs v).fault = a.fault := rfl
@[simp] theorem Apu.setFs_refusal (v : FrameSequencer) (a : Apu) : (a.setFs v).refusal = a.refusal := rfl

@[simp] theorem Apu.mapMix_ch1 (f : Mixer → Mixer) (a : Apu) : (a.mapMix f).ch1 = a.ch1 := rfl
@[simp] theorem Apu.mapMix_sweep (f : Mixer → Mixer) (a : Apu) : (a.mapMix f).sweep = a.sweep := rfl
@[simp] theorem Apu.mapMix_ch2 (f : Mixer → Mixer) (a : Apu) : (a.mapMix f).ch2 = a.ch2 := rfl
@[simp] theorem Apu.mapMix_ch3 (f : Mixer → Mixer) (a : Apu) : (a.mapMix f).ch3 = a.ch3 := rfl
@[simp] theorem Apu.mapMix_ch4 (f : Mixer → Mixer) (a : Apu) : (a.mapMix f).ch4 = a.ch4 := rfl
@[simp] theorem Apu.mapMix_fs (f : Mixer → Mixer) (a : Apu) : (a.mapMix f).fs = a.fs := rfl
@[simp] theorem Apu.mapMix_mix (f : Mixer → Mixer) (a : Apu) : (a.mapMix f).mix = f a.mix := rfl
@[simp] theorem Apu.mapMix_power (f : Mixer → Mixer) (a : Apu) : (a.mapMix f).power = a.power := rfl
@[simp] theorem Apu.mapMix_fault (f : Mixer → Mixer) (a : Apu) : (a.mapMix f).fault = a.fault := rfl
@[simp] theorem Apu.mapMix_refusal (f : Mixer → Mixer) (a : Apu) : (a.mapMix f).refusal = a.refusal := rfl

@[simp] theorem Apu.setPower_ch1 (b : Bool) (a : Apu) : (a.setPower b).ch1 = a.ch1 := rfl
@[simp] theorem Apu.setPower_sweep (b : Bool) (a : Apu) : (a.setPower b).sweep = a.sweep := rfl
@[simp] theorem Apu.setPower_ch2 (b : Bool) (a : Apu) : (a.setPower b).ch2 = a.ch2 := rfl
@[simp] theorem Apu.setPower_ch3 (b : Bool) (a : Apu) : (a.setPower b).ch3 = a.ch3 := rfl
@[simp] theorem Apu.setPower_ch4 (b : Bool) (a : Apu) : (a.setPower b).ch4 = a.ch4 := rfl
@[simp] theorem Apu.setPower_fs (b : Bool) (a : Apu) : (a.setPower b).fs = a.fs := rfl
@[simp] theorem Apu.setPower_mix (b : Bool) (a : Apu) : (a.setPower b).mix = a.mix := rfl
@[simp] theorem Apu.setPower_power (b : Bool) (a : Apu) : (a.setPower b).power = b := rfl
@[simp] theorem Apu.setPower_fault (b : Bool) (a : Apu) : (a.setPower b).fault = a.fault := rfl
@[simp] theorem Apu.setPower_refusal (b : Bool) (a : Apu) : (a.setPower b).refusal = a.refusal := rfl

@[simp] theorem Apu.raiseFault_ch1 (r : Fault) (a : Apu) : (a.raiseFault r).ch1 = a.ch1 := rfl
@[simp] theorem Apu.raiseFault_sweep (r : Fault) (a : Apu) : (a.raiseFault r).sweep = a.sweep := rfl
@[simp] theorem Apu.raiseFault_ch2 (r : Fault) (a : Apu) : (a.raiseFault r).ch2 = a.ch2 := rfl
@[simp] theorem Apu.raiseFault_ch3 (r : Fault) (a : Apu) : (a.raiseFault r).ch3 = a.ch3 := rfl
@[simp] theorem Apu.raiseFault_ch4 (r : Fault) (a : Apu) : (a.raiseFault r).ch4 = a.ch4 := rfl
@[simp] theorem Apu.raiseFault_fs (r : Fault) (a : Apu) : (a.raiseFault r).fs = a.fs := rfl
@[simp] theorem Apu.raiseFault_mix (r : Fault) (a : Apu) : (a.raiseFault r).mix = a.mix := rfl
@[simp] theorem Apu.raiseFault_power (r : Fault) (a : Apu) : (a.raiseFault r).power = a.power := rfl
@[simp] theorem Apu.raiseFault_fault (r : Fault) (a : Apu) : (a.raiseFault r).fault = some r := rfl
@[simp] theorem Apu.raiseFault_refusal (r : Fault) (a : Apu) : (a.raiseFault r).refusal = a.refusal := rfl

@[simp] theorem Apu.refuse_ch1 (r : Refusal) (a : Apu) : (a.refuse r).ch1 = a.ch1 := rfl
@[simp] theorem Apu.refuse_sweep (r : Refusal) (a : Apu) : (a.refuse r).sweep = a.sweep := rfl
@[simp] theorem Apu.refuse_ch2 (r : Refusal) (a : Apu) : (a.refuse r).ch2 = a.ch2 := rfl
@[simp] theorem Apu.refuse_ch3 (r : Refusal) (a : Apu) : (a.refuse r).ch3 = a.ch3 := rfl
@[simp] theorem Apu.refuse_ch4 (r : Refusal) (a : Apu) : (a.refuse r).ch4 = a.ch4 := rfl
@[simp] theorem Apu.refuse_fs (r : Refusal) (a : Apu) : (a.refuse r).fs = a.fs := rfl
@[simp] theorem Apu.refuse_mix (r : Refusal) (a : Apu) : (a.refuse r).mix = a.mix := rfl
@[simp] theorem Apu.refuse_power (r : Refusal) (a : Apu) : (a.refuse r).power = a.power := rfl
@[simp] theorem Apu.refuse_fault (r : Refusal) (a : Apu) : (a.refuse r).fault = a.fault := rfl
@[simp] theorem Apu.refuse_refusal (r : Refusal) (a : Apu) : (a.refuse r).refusal = some r := rfl

@[simp] theorem State.onApu_params (f : Params → Apu → Apu) (s : State) : (s.onApu f).params = s.params := rfl
@[simp] theorem State.onApu_host (f : Params → Apu → Apu) (s : State) : (s.onApu f).host = s.host := rfl
@[simp] theorem State.onApu_apu (f : Params → Apu → Apu) (s : State) : (s.onApu f).apu = f s.params s.apu := rfl

@[simp] theorem deliver_params (r : Reply) (s : State) : (deliver r s).params = s.params := rfl
@[simp] theorem deliver_apu (r : Reply) (s : State) : (deliver r s).apu = s.apu := rfl
@[simp] theorem deliverFree_params (s : State) : (deliverFree s).params = s.params := rfl
@[simp] theorem deliverFree_apu (s : State) : (deliverFree s).apu = s.apu := rfl
@[simp] theorem advance_params (s : State) : (advance s).params = s.params := rfl
@[simp] theorem advance_apu (s : State) : (advance s).apu = s.apu := rfl
@[simp] theorem placeWord_params (w : Word) (s : State) : (placeWord w s).params = s.params := rfl
@[simp] theorem placeWord_apu (w : Word) (s : State) : (placeWord w s).apu = s.apu := rfl
@[simp] theorem deliver_program (r : Reply) (s : State) : (deliver r s).host.program = s.host.program := rfl
@[simp] theorem deliver_position (r : Reply) (s : State) : (deliver r s).host.position = s.host.position := rfl
@[simp] theorem deliver_replies (r : Reply) (s : State) : (deliver r s).host.replies = r :: s.host.replies := rfl
@[simp] theorem deliver_draws (r : Reply) (s : State) : (deliver r s).host.draws = s.host.draws := rfl
@[simp] theorem deliverFree_program (s : State) : (deliverFree s).host.program = s.host.program := rfl
@[simp] theorem deliverFree_position (s : State) : (deliverFree s).host.position = s.host.position := rfl
@[simp] theorem deliverFree_replies (s : State) : (deliverFree s).host.replies = .byte (Config.freeByte s.host.draws) :: s.host.replies := rfl
@[simp] theorem deliverFree_draws (s : State) : (deliverFree s).host.draws = s.host.draws + 1 := rfl
@[simp] theorem advance_program (s : State) : (advance s).host.program = s.host.program := rfl
@[simp] theorem advance_position (s : State) : (advance s).host.position = s.host.position + 1 := rfl
@[simp] theorem advance_replies (s : State) : (advance s).host.replies = s.host.replies := rfl
@[simp] theorem advance_draws (s : State) : (advance s).host.draws = s.host.draws := rfl

end Sys2Proof.Machine
end

