-- ==== Sys2Proof/Laws/Ops.lean ====
section
/-! SUPPORT. One lemma for each shared operation that says everything it can do: the countdown, performing an operation,
a READ, a WRITE, an access outside the window. -/

namespace Sys2Proof.Machine

/-- The guarded decrement of R129 is subtraction of naturals. -/
theorem countdown_eq (x r : Nat) : countdown x r = if x - 1 = 0 then (r, true) else (x - 1, false) := by
  have h : (if x > 0 then x - 1 else x) = x - 1 := by split <;> omega
  simp only [countdown, h]

/-- A counter at 0 or 1 expires and takes the reload value (40_pulse R129). -/
theorem countdown_expires {x r : Nat} (h : x ≤ 1) : countdown x r = (r, true) := by
  rw [countdown_eq, if_pos (by omega)]

/-- A counter above 1 counts down by one (40_pulse R129). -/
theorem countdown_counts {x r : Nat} (h : 1 < x) : countdown x r = (x - 1, false) := by
  rw [countdown_eq, if_neg (by omega)]

/-- A counter bounded by `b`, with a reload value bounded by `b`, stays bounded by `b`. -/
theorem countdown_le {x r b : Nat} (hx : x ≤ b) (hr : r ≤ b) : (countdown x r).1 ≤ b := by
  rcases Nat.lt_or_ge 1 x with h | h
  · rw [countdown_counts h]; dsimp only; omega
  · rw [countdown_expires h]; exact hr

/-- A counter is 0 after a clock only by reloading 0. -/
theorem countdown_pos {x r : Nat} (hr : 1 ≤ r) : 1 ≤ (countdown x r).1 := by
  rcases Nat.lt_or_ge 1 x with h | h
  · rw [countdown_counts h]; dsimp only; omega
  · rw [countdown_expires h]; exact hr

/-- A state with no stop recorded settles as a next state (60_exceptions R280). -/
theorem settle_running {s : State} (h : s.Running) : settle s = .next s := by
  simp [settle, h.1, h.2]

/-- Settling gives a next state only where no stop is recorded, and then the state itself. -/
theorem settle_next_iff {s t : State} : settle s = .next t ↔ s.Running ∧ t = s := by
  unfold settle State.Running
  cases s.apu.fault <;> cases s.apu.refusal <;> simp [eq_comm]

/-- Settling gives a fault only where that fault is recorded. -/
theorem settle_fault_iff {s : State} {r : Fault} : settle s = .fault r ↔ s.apu.fault = some r := by
  unfold settle
  cases s.apu.fault <;> cases s.apu.refusal <;> simp

/-- Settling gives a refusal only where that refusal, and no fault, is recorded. -/
theorem settle_refused_iff {s : State} {r : Refusal} :
    settle s = .refused r ↔ s.apu.fault = none ∧ s.apu.refusal = some r := by
  unfold settle
  cases s.apu.fault <;> cases s.apu.refusal <;> simp

/-- An operation in a running state is its effect, settled. -/
theorem perform_running {f : State → State} {s : State} (h : s.Running) : perform f s = settle (f s) := by
  simp [perform, settle_running h]

/-- What a performed operation's next state is. -/
theorem perform_next_iff {f : State → State} {s t : State} :
    perform f s = .next t ↔ s.Running ∧ t = f s ∧ (f s).Running := by
  by_cases h : s.Running
  · rw [perform_running h, settle_next_iff]
    constructor
    · rintro ⟨h1, h2⟩; exact ⟨h, h2, h1⟩
    · rintro ⟨-, h2, h1⟩; exact ⟨h1, h2⟩
  · constructor
    · intro hp
      cases hs : settle s with
      | next u => exact absurd (settle_next_iff.1 hs).1 h
      | fault r => simp [perform, hs] at hp
      | refused r => simp [perform, hs] at hp
    · rintro ⟨h1, -⟩; exact absurd h1 h

/-- In a marked state every operation stops as the mark says (R280). -/
theorem perform_fault {f : State → State} {s : State} {r : Fault} (h : s.apu.fault = some r) :
    perform f s = .fault r := by
  simp [perform, settle, h]

/-- In a state with a refusal mark every operation stops as the mark says (R280). -/
theorem perform_refused {f : State → State} {s : State} {r : Refusal} (hf : s.apu.fault = none)
    (h : s.apu.refusal = some r) : perform f s = .refused r := by
  simp [perform, settle, hf, h]

/-- A READ completes in every running state, hands over the masked natural value and changes nothing else. -/
theorem perform_readByte {s : State} (h : s.Running) (a : Addr) (n : Apu → Byte) :
    perform (readByte a n) s = .next (deliver (.byte (n s.apu ||| readMaskAt s.params a)) s) := by
  rw [perform_running h]
  exact settle_running h

/-- An accepted WRITE has its effect. -/
theorem writeByte_accepted {s : State} (h : s.AcceptsWrites) (w : Word) (a : Addr) (f : Params → Apu → Apu) :
    writeByte w a f s = s.onApu f := by
  rw [writeByte, if_neg]
  rintro ⟨h1, h2, -⟩
  rcases h with h | h
  · rw [h1] at h; cases h
  · rw [h2] at h; cases h

/-- A WRITE the power gate does not cover has its effect. -/
theorem writeByte_ungated {a : Addr} (h : powerGated a = false) (w : Word) (f : Params → Apu → Apu) (s : State) :
    writeByte w a f s = s.onApu f := by
  rw [writeByte, if_neg]
  rintro ⟨-, -, h3⟩
  rw [h] at h3
  cases h3

/-- Everything a WRITE can do: it is refused with its word, or it has its effect. -/
theorem writeByte_cases (w : Word) (a : Addr) (f : Params → Apu → Apu) (s : State) :
    (s.params.powerOff = .refuse ∧ s.apu.power = false ∧ powerGated a = true
      ∧ writeByte w a f s = s.onApu fun _ => Apu.refuse (.powerOffUnmodelled w))
    ∨ (¬ (s.params.powerOff = .refuse ∧ s.apu.power = false ∧ powerGated a = true)
      ∧ writeByte w a f s = s.onApu f) := by
  unfold writeByte
  split
  · next h => exact .inl ⟨h.1, h.2.1, h.2.2, rfl⟩
  · next h => exact .inr ⟨h, rfl⟩

/-- A WRITE's next state is its effect on the block, where that effect records no stop. -/
theorem perform_writeByte_next {w : Word} {a : Addr} {f : Params → Apu → Apu} {s t : State}
    (h : perform (writeByte w a f) s = .next t) : s.Running ∧ t = s.onApu f ∧ t.Running := by
  obtain ⟨h1, h2, h3⟩ := perform_next_iff.1 h
  rcases writeByte_cases w a f s with ⟨-, -, -, hw⟩ | ⟨-, hw⟩
  · rw [hw] at h3; exact absurd h3.2 (by simp)
  · rw [hw] at h2 h3; exact ⟨h1, h2, h2 ▸ h3⟩

/-- An accepted WRITE whose effect records no stop completes. -/
theorem perform_writeByte {w : Word} {a : Addr} {f : Params → Apu → Apu} {s : State} (h : s.Running)
    (ha : s.AcceptsWrites) (hf : (s.onApu f).Running) : perform (writeByte w a f) s = .next (s.onApu f) := by
  rw [perform_running h, writeByte_accepted ha, settle_running hf]

/-- Everything an access outside the window can do. -/
theorem outOfWindow_cases (a : Addr) (g : State → State) (s : State) :
    (s.params.busRange = .fault ∧ outOfWindow a g s = s.onApu fun _ => Apu.raiseFault (.busRange a))
    ∨ (s.params.busRange = .ignore ∧ outOfWindow a g s = g s) := by
  unfold outOfWindow
  cases h : s.params.busRange with
  | fault => exact .inl ⟨rfl, rfl⟩
  | ignore => exact .inr ⟨rfl, rfl⟩

end Sys2Proof.Machine
end

