-- ==== Sys2Proof/Laws/Exec.lean ====
section
/-! SUPPORT. What one operation can do, said once for all 56: if it gives a next state, it is in a running state, and the next
state is the plain effect of the operation (`effect`): the block through `blockEffect`, the host through its reply. -/

namespace Sys2Proof.Machine

/-- What an operation that gives a next state does to the block; READs, SAMPLE and the addresses without a register do
nothing. -/
def blockEffect (p : Params) : Instr → Apu → Apu
  | .writeNr10 d => Apu.mapSweep (Sweep.write d)
  | .readNr10 => id
  | .writeNr11 d => Apu.mapCh1 (Pulse.writeDutyLength d)
  | .readNr11 => id
  | .writeNr12 d => Apu.mapCh1 (Pulse.writeEnvelope d)
  | .readNr12 => id
  | .writeNr13 d => Apu.mapCh1 (Pulse.writeFrequencyLow d)
  | .readNr13 => id
  | .writeNr14 d => Apu.mapCh1 (Pulse.writeFrequencyHigh p d)
  | .readNr14 => id
  | .writeNr21 d => Apu.mapCh2 (Pulse.writeDutyLength d)
  | .readNr21 => id
  | .writeNr22 d => Apu.mapCh2 (Pulse.writeEnvelope d)
  | .readNr22 => id
  | .writeNr23 d => Apu.mapCh2 (Pulse.writeFrequencyLow d)
  | .readNr23 => id
  | .writeNr24 d => Apu.mapCh2 (Pulse.writeFrequencyHigh p d)
  | .readNr24 => id
  | .writeNr30 d => Apu.mapCh3 fun c => { c with toChannel := c.toChannel.writeDac (waveDacField d) }
  | .readNr30 => id
  | .writeNr31 d => Apu.mapCh3 fun c => { c with lengthCounter := lengthLoad256 d }
  | .readNr31 => id
  | .writeNr32 d => Apu.mapCh3 fun c => { c with volumeCode := volumeCodeField d }
  | .readNr32 => id
  | .writeNr33 d => Apu.mapCh3 (Wave.writeFrequencyLow d)
  | .readNr33 => id
  | .writeNr34 d => Apu.mapCh3 (Wave.writeFrequencyHigh d)
  | .readNr34 => id
  | .writeNr41 d => Apu.mapCh4 fun c => { c with lengthCounter := lengthLoad64 d }
  | .readNr41 => id
  | .writeNr42 d => Apu.mapCh4 (Noise.writeEnvelope d)
  | .readNr42 => id
  | .writeNr43 d => Apu.mapCh4 (Noise.writePolynomial d)
  | .readNr43 => id
  | .writeNr44 d => Apu.mapCh4 (Noise.writeControl p d)
  | .readNr44 => id
  | .writeNr50 d => Apu.mapMix (Mixer.writeVolume d)
  | .readNr50 => id
  | .writeNr51 d => Apu.mapMix (Mixer.writeRouting d)
  | .readNr51 => id
  | .writeNr52 d => Apu.setPower (powerField d)
  | .readNr52 => id
  | .writeWave i d => Apu.mapCh3 fun c => { c with waveRam := Memory.write c.waveRam (waveAddr i) d }
  | .readWave _ => id
  | .writeUnusedFf15 _ => id
  | .readUnusedFf15 => id
  | .writeUnusedFf1f _ => id
  | .readUnusedFf1f => id
  | .writeUnusedFf27 _ => id
  | .readUnusedFf27 => id
  | .writeUnusedFf28To2f _ _ => id
  | .readUnusedFf28To2f _ => id
  | .writeOutOfWindow _ _ => id
  | .readOutOfWindow _ => id
  | .step => Apu.cycle p
  | .sample => id

/-- The byte a READ of the window hands to the host (30_encoding R92). -/
def readReply (s : State) : Instr → Option Byte
  | .writeNr10 _ => none
  | .readNr10 => some (naturalSweep s.apu.sweep ||| readMaskAt s.params 0xFF10#16)
  | .writeNr11 _ => none
  | .readNr11 => some (naturalDuty s.apu.ch1 ||| readMaskAt s.params 0xFF11#16)
  | .writeNr12 _ => none
  | .readNr12 => some (naturalEnvelope s.apu.ch1.toEnvelope ||| readMaskAt s.params 0xFF12#16)
  | .writeNr13 _ => none
  | .readNr13 => some (0#8 ||| readMaskAt s.params 0xFF13#16)
  | .writeNr14 _ => none
  | .readNr14 => some (naturalControl s.apu.ch1.toChannel ||| readMaskAt s.params 0xFF14#16)
  | .writeNr21 _ => none
  | .readNr21 => some (naturalDuty s.apu.ch2 ||| readMaskAt s.params 0xFF16#16)
  | .writeNr22 _ => none
  | .readNr22 => some (naturalEnvelope s.apu.ch2.toEnvelope ||| readMaskAt s.params 0xFF17#16)
  | .writeNr23 _ => none
  | .readNr23 => some (0#8 ||| readMaskAt s.params 0xFF18#16)
  | .writeNr24 _ => none
  | .readNr24 => some (naturalControl s.apu.ch2.toChannel ||| readMaskAt s.params 0xFF19#16)
  | .writeNr30 _ => none
  | .readNr30 => some (naturalWavePower s.apu.ch3 ||| readMaskAt s.params 0xFF1A#16)
  | .writeNr31 _ => none
  | .readNr31 => some (0#8 ||| readMaskAt s.params 0xFF1B#16)
  | .writeNr32 _ => none
  | .readNr32 => some (naturalWaveVolume s.apu.ch3 ||| readMaskAt s.params 0xFF1C#16)
  | .writeNr33 _ => none
  | .readNr33 => some (0#8 ||| readMaskAt s.params 0xFF1D#16)
  | .writeNr34 _ => none
  | .readNr34 => some (naturalControl s.apu.ch3.toChannel ||| readMaskAt s.params 0xFF1E#16)
  | .writeNr41 _ => none
  | .readNr41 => some (0#8 ||| readMaskAt s.params 0xFF20#16)
  | .writeNr42 _ => none
  | .readNr42 => some (naturalEnvelope s.apu.ch4.toEnvelope ||| readMaskAt s.params 0xFF21#16)
  | .writeNr43 _ => none
  | .readNr43 => some (naturalPolynomial s.apu.ch4 ||| readMaskAt s.params 0xFF22#16)
  | .writeNr44 _ => none
  | .readNr44 => some (naturalControl s.apu.ch4.toChannel ||| readMaskAt s.params 0xFF23#16)
  | .writeNr50 _ => none
  | .readNr50 => some (naturalMasterVolume s.apu.mix ||| readMaskAt s.params 0xFF24#16)
  | .writeNr51 _ => none
  | .readNr51 => some (naturalRouting s.apu.mix ||| readMaskAt s.params 0xFF25#16)
  | .writeNr52 _ => none
  | .readNr52 => some (naturalStatus s.apu ||| readMaskAt s.params 0xFF26#16)
  | .writeWave _ _ => none
  | .readWave i => some (Memory.read s.apu.ch3.waveRam (waveAddr i) ||| readMaskAt s.params (0xFF3#12 ++ i))
  | .writeUnusedFf15 _ => none
  | .readUnusedFf15 => some (0#8 ||| readMaskAt s.params 0xFF15#16)
  | .writeUnusedFf1f _ => none
  | .readUnusedFf1f => some (0#8 ||| readMaskAt s.params 0xFF1F#16)
  | .writeUnusedFf27 _ => none
  | .readUnusedFf27 => some (0#8 ||| readMaskAt s.params 0xFF27#16)
  | .writeUnusedFf28To2f _ _ => none
  | .readUnusedFf28To2f j => some (0#8 ||| readMaskAt s.params (0x1FE5#13 ++ j))
  | .writeOutOfWindow _ _ => none
  | .readOutOfWindow _ => none
  | .step => none
  | .sample => none

/-- What an operation that gives a next state does to the host's port. -/
def hostEffect (i : Instr) (s : State) : HostPort :=
  match readReply s i with
  | some b => (deliver (.byte b) s).host
  | none =>
    match i with
    | .sample => (deliver (.pair (s.apu.outLeft s.params) (s.apu.outRight s.params)) s).host
    | .readOutOfWindow _ => (deliverFree s).host
    | _ => s.host

/-- The next state of an operation, where it gives one. -/
def effect (i : Instr) (s : State) : State :=
  { s with host := hostEffect i s, apu := blockEffect s.params i s.apu }

/-- If an operation gives a next state, it is in a running state, the next state is its effect, and that is running. -/
theorem exec_next {i : Instr} {s t : State} (h : exec i s = .next t) : s.Running ∧ t = effect i s ∧ t.Running := by
  cases i
  case writeNr10 d =>
    exact perform_writeByte_next h
  case readNr10 =>
    obtain ⟨h1, h2, h3⟩ := perform_next_iff.1 h
    exact ⟨h1, h2, h2 ▸ h3⟩
  case writeNr11 d =>
    exact perform_writeByte_next h
  case readNr11 =>
    obtain ⟨h1, h2, h3⟩ := perform_next_iff.1 h
    exact ⟨h1, h2, h2 ▸ h3⟩
  case writeNr12 d =>
    exact perform_writeByte_next h
  case readNr12 =>
    obtain ⟨h1, h2, h3⟩ := perform_next_iff.1 h
    exact ⟨h1, h2, h2 ▸ h3⟩
  case writeNr13 d =>
    exact perform_writeByte_next h
  case readNr13 =>
    obtain ⟨h1, h2, h3⟩ := perform_next_iff.1 h
    exact ⟨h1, h2, h2 ▸ h3⟩
  case writeNr14 d =>
    exact perform_writeByte_next h
  case readNr14 =>
    obtain ⟨h1, h2, h3⟩ := perform_next_iff.1 h
    exact ⟨h1, h2, h2 ▸ h3⟩
  case writeNr21 d =>
    exact perform_writeByte_next h
  case readNr21 =>
    obtain ⟨h1, h2, h3⟩ := perform_next_iff.1 h
    exact ⟨h1, h2, h2 ▸ h3⟩
  case writeNr22 d =>
    exact perform_writeByte_next h
  case readNr22 =>
    obtain ⟨h1, h2, h3⟩ := perform_next_iff.1 h
    exact ⟨h1, h2, h2 ▸ h3⟩
  case writeNr23 d =>
    exact perform_writeByte_next h
  case readNr23 =>
    obtain ⟨h1, h2, h3⟩ := perform_next_iff.1 h
    exact ⟨h1, h2, h2 ▸ h3⟩
  case writeNr24 d =>
    exact perform_writeByte_next h
  case readNr24 =>
    obtain ⟨h1, h2, h3⟩ := perform_next_iff.1 h
    exact ⟨h1, h2, h2 ▸ h3⟩
  case writeNr30 d =>
    exact perform_writeByte_next h
  case readNr30 =>
    obtain ⟨h1, h2, h3⟩ := perform_next_iff.1 h
    exact ⟨h1, h2, h2 ▸ h3⟩
  case writeNr31 d =>
    exact perform_writeByte_next h
  case readNr31 =>
    obtain ⟨h1, h2, h3⟩ := perform_next_iff.1 h
    exact ⟨h1, h2, h2 ▸ h3⟩
  case writeNr32 d =>
    exact perform_writeByte_next h
  case readNr32 =>
    obtain ⟨h1, h2, h3⟩ := perform_next_iff.1 h
    exact ⟨h1, h2, h2 ▸ h3⟩
  case writeNr33 d =>
    exact perform_writeByte_next h
  case readNr33 =>
    obtain ⟨h1, h2, h3⟩ := perform_next_iff.1 h
    exact ⟨h1, h2, h2 ▸ h3⟩
  case writeNr34 d =>
    exact perform_writeByte_next h
  case readNr34 =>
    obtain ⟨h1, h2, h3⟩ := perform_next_iff.1 h
    exact ⟨h1, h2, h2 ▸ h3⟩
  case writeNr41 d =>
    exact perform_writeByte_next h
  case readNr41 =>
    obtain ⟨h1, h2, h3⟩ := perform_next_iff.1 h
    exact ⟨h1, h2, h2 ▸ h3⟩
  case writeNr42 d =>
    exact perform_writeByte_next h
  case readNr42 =>
    obtain ⟨h1, h2, h3⟩ := perform_next_iff.1 h
    exact ⟨h1, h2, h2 ▸ h3⟩
  case writeNr43 d =>
    exact perform_writeByte_next h
  case readNr43 =>
    obtain ⟨h1, h2, h3⟩ := perform_next_iff.1 h
    exact ⟨h1, h2, h2 ▸ h3⟩
  case writeNr44 d =>
    exact perform_writeByte_next h
  case readNr44 =>
    obtain ⟨h1, h2, h3⟩ := perform_next_iff.1 h
    exact ⟨h1, h2, h2 ▸ h3⟩
  case writeNr50 d =>
    exact perform_writeByte_next h
  case readNr50 =>
    obtain ⟨h1, h2, h3⟩ := perform_next_iff.1 h
    exact ⟨h1, h2, h2 ▸ h3⟩
  case writeNr51 d =>
    exact perform_writeByte_next h
  case readNr51 =>
    obtain ⟨h1, h2, h3⟩ := perform_next_iff.1 h
    exact ⟨h1, h2, h2 ▸ h3⟩
  case writeNr52 d =>
    obtain ⟨h1, h2, h3⟩ := perform_writeByte_next h
    refine ⟨h1, ?_, h3⟩
    by_cases hp : s.params.powerOff = .refuse ∧ powerField d = false
    · rw [h2] at h3; exact absurd h3.2 (by simp [hp])
    · rw [h2]; simp only [State.onApu, hp, if_false]; rfl
  case readNr52 =>
    obtain ⟨h1, h2, h3⟩ := perform_next_iff.1 h
    exact ⟨h1, h2, h2 ▸ h3⟩
  case writeWave i d =>
    exact perform_writeByte_next h
  case readWave i =>
    obtain ⟨h1, h2, h3⟩ := perform_next_iff.1 h
    exact ⟨h1, h2, h2 ▸ h3⟩
  case writeUnusedFf15 d =>
    exact perform_writeByte_next h
  case readUnusedFf15 =>
    obtain ⟨h1, h2, h3⟩ := perform_next_iff.1 h
    exact ⟨h1, h2, h2 ▸ h3⟩
  case writeUnusedFf1f d =>
    exact perform_writeByte_next h
  case readUnusedFf1f =>
    obtain ⟨h1, h2, h3⟩ := perform_next_iff.1 h
    exact ⟨h1, h2, h2 ▸ h3⟩
  case writeUnusedFf27 d =>
    exact perform_writeByte_next h
  case readUnusedFf27 =>
    obtain ⟨h1, h2, h3⟩ := perform_next_iff.1 h
    exact ⟨h1, h2, h2 ▸ h3⟩
  case writeUnusedFf28To2f j d =>
    exact perform_writeByte_next h
  case readUnusedFf28To2f j =>
    obtain ⟨h1, h2, h3⟩ := perform_next_iff.1 h
    exact ⟨h1, h2, h2 ▸ h3⟩
  case writeOutOfWindow a d =>
    obtain ⟨h1, h2, h3⟩ := perform_next_iff.1 h
    rcases outOfWindow_cases a id s with ⟨-, hw⟩ | ⟨-, hw⟩
    · rw [hw] at h3; exact absurd h3.1 (by simp)
    · rw [hw] at h2; exact ⟨h1, h2, h2 ▸ h1⟩
  case readOutOfWindow a =>
    obtain ⟨h1, h2, h3⟩ := perform_next_iff.1 h
    rcases outOfWindow_cases a deliverFree s with ⟨-, hw⟩ | ⟨-, hw⟩
    · rw [hw] at h3; exact absurd h3.1 (by simp)
    · rw [hw] at h2; exact ⟨h1, h2, h2 ▸ h1⟩
  case step =>
    obtain ⟨h1, h2, h3⟩ := perform_next_iff.1 h
    exact ⟨h1, h2, h2 ▸ h3⟩
  case sample =>
    obtain ⟨h1, h2, h3⟩ := perform_next_iff.1 h
    exact ⟨h1, h2, h2 ▸ h3⟩

/-- A READ of the window completes in every running state and hands over its reply. -/
theorem exec_read {i : Instr} {s : State} {b : Byte} (hr : s.Running) (h : readReply s i = some b) :
    exec i s = .next (deliver (.byte b) s) := by
  cases i <;> cases h <;> exact perform_readByte hr _ _

/-- A READ of the window replies its masked natural value (30_encoding R92). -/
theorem readReply_of_read {i : Instr} {a : Addr} (s : State) (hw : i.WellFormed) (hr : IsRead i)
    (ha : i.addr? = some a) (hin : inWindow a = true) : ∃ n, readReply s i = some (n ||| readMaskAt s.params a) := by
  cases i
  case readOutOfWindow b =>
    simp only [Instr.WellFormed, Instr.wf] at hw
    simp only [Instr.addr?, Option.some.injEq] at ha
    subst ha
    rw [hin] at hw
    cases hw
  all_goals first
    | (exfalso; simp only [IsRead, encode, opField_mkWord] at hr; exact absurd hr (by decide))
    | (simp only [Instr.addr?, Option.some.injEq] at ha; subst ha; exact ⟨_, rfl⟩)

/-- A reply reads the block and the parameters alone. -/
theorem readReply_congr {s t : State} (i : Instr) (ha : t.apu = s.apu) (hp : t.params = s.params) :
    readReply t i = readReply s i := by
  cases i <;> simp only [readReply, ha, hp]

/-- An operation keeps the parameters. -/
theorem exec_params {i : Instr} {s t : State} (h : exec i s = .next t) : t.params = s.params := by
  rw [(exec_next h).2.1]
  rfl

/-- An operation's effect on the block. -/
theorem exec_apu {i : Instr} {s t : State} (h : exec i s = .next t) : t.apu = blockEffect s.params i s.apu := by
  rw [(exec_next h).2.1]
  rfl

/-- An operation keeps the host's program and position: the step moves the position, not the block (10_state R21). -/
theorem exec_host {i : Instr} {s t : State} (h : exec i s = .next t) :
    t.host.program = s.host.program ∧ t.host.position = s.host.position := by
  rw [(exec_next h).2.1]
  simp only [effect, hostEffect]
  split
  · exact ⟨rfl, rfl⟩
  · split <;> exact ⟨rfl, rfl⟩

/-- Everything a step that gives a next state can be: the host had no operation and nothing changed, or it issued one,
which was executed, and moved on. -/
theorem step_next_cases {s t : State} (h : step s = .next t) :
    (t = s ∧ s.host.program[s.host.position]? = none)
      ∨ ∃ w i u, s.host.program[s.host.position]? = some w ∧ decode w = .ok i ∧ exec i s = .next u ∧ t = advance u := by
  unfold step issueNext at h
  cases hs : settle s with
  | fault r => simp [hs] at h
  | refused r => simp [hs] at h
  | next s' =>
    obtain ⟨hr, rfl⟩ := settle_next_iff.1 hs
    simp only [hs, fetchWord] at h
    cases hf : s'.host.program[s'.host.position]? with
    | none => simp only [hf, Host.Outcome.next.injEq] at h; exact .inl ⟨h.symm, rfl⟩
    | some w =>
      simp only [hf, issueWord] at h
      cases hd : decode w with
      | error e =>
        simp only [hd] at h
        exact absurd (perform_next_iff.1 h).2.2.2 (by simp)
      | ok i =>
        simp only [hd] at h
        cases he : exec i s' with
        | fault r => simp [he, advanceOutcome] at h
        | refused r => simp [he, advanceOutcome] at h
        | next u =>
          simp only [he, advanceOutcome, Host.Outcome.next.injEq] at h
          exact .inr ⟨w, i, u, rfl, hd, he, h.symm⟩

end Sys2Proof.Machine
end

