-- ==== Sys2Proof/Laws/Units.lean ====
section
/-! SUPPORT. What one STEP does, said once: the cases of a cycle, what each unit writes, and that each unit keeps its part of
the invariant. -/

namespace Sys2Proof.Machine

/-! ## The cases of a cycle (43_frame_sequencer R231-R233) -/

/-- A STEP without a tick. -/
theorem cycle_noTick {p : Params} {a : Apu} (h : 1 < a.fs.period) :
    a.cycle p = (a.clockTimers p).setFs ⟨a.fs.period - 1, a.fs.frame⟩ := by
  have hf : (a.clockTimers p).fs = a.fs := rfl
  simp only [Apu.cycle, Apu.fsClock, hf, countdown_counts h]
  rfl

/-- A STEP with a tick. -/
theorem cycle_tick {p : Params} {a : Apu} (h : a.fs.period ≤ 1) :
    a.cycle p = ((a.clockTimers p).setFs ⟨8192, a.fs.frame + 1#3⟩).tick p a.fs.frame := by
  have hf : (a.clockTimers p).fs = a.fs := rfl
  simp only [Apu.cycle, Apu.fsClock, hf, countdown_expires h]
  rfl

/-- The four kinds of tick (R232). -/
theorem tick_cases (p : Params) (t : BitVec 3) (a : Apu) :
    (t.toNat % 2 = 1 ∧ t.toNat ≠ 7 ∧ t.toNat % 4 ≠ 2 ∧ a.tick p t = a)
      ∨ (t.toNat = 7 ∧ a.tick p t = a.clockEnvelopes p)
      ∨ (t.toNat % 2 = 0 ∧ t.toNat % 4 = 0 ∧ t.toNat ≠ 7 ∧ a.tick p t = a.clockLengths)
      ∨ (t.toNat % 2 = 0 ∧ t.toNat % 4 = 2 ∧ t.toNat ≠ 7 ∧ a.tick p t = a.clockLengths.clockSweep p) := by
  have ht := t.isLt
  unfold Apu.tick
  rcases (by omega : (t.toNat % 2 = 1 ∧ t.toNat ≠ 7 ∧ t.toNat % 4 ≠ 2) ∨ (t.toNat = 7)
      ∨ (t.toNat % 2 = 0 ∧ t.toNat % 4 = 0 ∧ t.toNat ≠ 7) ∨ (t.toNat % 2 = 0 ∧ t.toNat % 4 = 2 ∧ t.toNat ≠ 7))
    with ⟨h1, h2, h3⟩ | h | ⟨h1, h2, h3⟩ | ⟨h1, h2, h3⟩
  · exact .inl ⟨h1, h2, h3, by simp [h1, h2, h3]⟩
  · exact .inr (.inl ⟨h, by simp [h]⟩)
  · exact .inr (.inr (.inl ⟨h1, h2, h3, by simp [h1, h2, h3]⟩))
  · exact .inr (.inr (.inr ⟨h1, h2, h3, by simp [h1, h2, h3]⟩))

/-! ## The sweep (40_pulse R134) -/

/-- What a sweep update writes. -/
theorem applySweep_cases (p : Params) (nf : Nat) (a : Apu) :
    (nf ≤ 2047 ∧ a.applySweep p nf = a.mapCh1 fun c => { c with frequency := BitVec.ofNat 11 nf })
      ∨ (2047 < nf ∧ p.sweepOverflow = .fault ∧ a.applySweep p nf = a.raiseFault (.sweepOverflow nf))
      ∨ (2047 < nf ∧ p.sweepOverflow = .wrap11
        ∧ a.applySweep p nf = a.mapCh1 fun c => { c with frequency := BitVec.ofNat 11 (nf % 2048) })
      ∨ (2047 < nf ∧ p.sweepOverflow = .disable ∧ a.applySweep p nf = a.mapCh1 fun c => { c with enabled := false }) := by
  unfold Apu.applySweep
  rcases Nat.lt_or_ge 2047 nf with h | h
  · rw [if_neg (by omega)]
    cases hp : p.sweepOverflow with
    | fault => exact .inr (.inl ⟨h, rfl, rfl⟩)
    | wrap11 => exact .inr (.inr (.inl ⟨h, rfl, rfl⟩))
    | disable => exact .inr (.inr (.inr ⟨h, rfl, rfl⟩))
  · rw [if_pos (by omega)]
    exact .inl ⟨h, rfl⟩

/-- What a sweep tick does: nothing with a sweep time of 0, one count, or a count that reloads and an update. -/
theorem clockSweep_cases (p : Params) (a : Apu) :
    (a.sweep.sweepTime = 0#3 ∧ a.clockSweep p = a)
      ∨ (a.sweep.sweepTime ≠ 0#3 ∧ 1 < a.sweep.sweepCounter
        ∧ a.clockSweep p = a.mapSweep fun w => { w with sweepCounter := w.sweepCounter - 1 })
      ∨ (a.sweep.sweepTime ≠ 0#3 ∧ a.sweep.sweepCounter ≤ 1
        ∧ a.clockSweep p = (a.mapSweep fun w => { w with sweepCounter := w.sweepTime.toNat }).applySweep p
          (sweepTarget a.sweep a.ch1.frequency)) := by
  unfold Apu.clockSweep
  by_cases h0 : a.sweep.sweepTime = 0#3
  · exact .inl ⟨h0, if_pos h0⟩
  · rw [if_neg h0]
    rcases Nat.lt_or_ge 1 a.sweep.sweepCounter with h | h
    · rw [countdown_counts h]
      exact .inr (.inl ⟨h0, h, rfl⟩)
    · rw [countdown_expires h]
      exact .inr (.inr ⟨h0, h, rfl⟩)

/-- The sum a sweep update computes, by division. -/
theorem sweepTarget_eq (s : State) : sweepTarget s.apu.sweep s.apu.ch1.frequency = s.sweepSum := by
  simp only [sweepTarget, State.sweepSum, Nat.shiftRight_eq_div_pow]

/-- A subtracting sweep never overflows. -/
theorem sweepTarget_sub_le {w : Sweep} (h : w.sweepDirection = true) (f : BitVec 11) : sweepTarget w f ≤ 2047 := by
  have := f.isLt
  simp only [sweepTarget, h, if_true]
  exact Nat.le_trans (Nat.sub_le _ _) (by omega)

/-! ## The envelope (40_pulse R133) -/

/-- What a volume step writes. -/
theorem stepVolume_cases (p : Params) (e : Envelope) :
    (p.envFreezeLatch = true ∧ e.envFrozen = true ∧ e.stepVolume p = e)
      ∨ (¬ (p.envFreezeLatch = true ∧ e.envFrozen = true)
        ∧ (if e.envDirection then e.volume ≤ 14 else 1 ≤ e.volume ∧ e.volume ≤ 16)
        ∧ e.stepVolume p = { e with volume := if e.envDirection then e.volume + 1 else e.volume - 1 })
      ∨ (¬ (p.envFreezeLatch = true ∧ e.envFrozen = true)
        ∧ ¬ (if e.envDirection then e.volume ≤ 14 else 1 ≤ e.volume ∧ e.volume ≤ 16)
        ∧ e.stepVolume p = { e with envFrozen := p.envFreezeLatch || e.envFrozen }) := by
  unfold Envelope.stepVolume
  by_cases hf : p.envFreezeLatch = true ∧ e.envFrozen = true
  · exact .inl ⟨hf.1, hf.2, if_pos hf⟩
  · rw [if_neg hf]
    refine .inr ?_
    cases hd : e.envDirection
    · simp only [Bool.false_eq_true, if_false]
      by_cases hv : 1 ≤ e.volume ∧ e.volume ≤ 16
      · refine .inl ⟨hf, hv, ?_⟩
        rw [if_pos (by omega), show ((e.volume : Int) - 1).toNat = e.volume - 1 by omega]
      · refine .inr ⟨hf, hv, ?_⟩
        rw [if_neg (by omega)]
        cases p.envFreezeLatch <;> cases e <;> simp_all
    · simp only [if_true]
      by_cases hv : e.volume ≤ 14
      · refine .inl ⟨hf, hv, ?_⟩
        rw [if_pos (by omega), show ((e.volume : Int) + 1).toNat = e.volume + 1 by omega]
      · refine .inr ⟨hf, hv, ?_⟩
        rw [if_neg (by omega)]
        cases p.envFreezeLatch <;> cases e <;> simp_all

/-- What an envelope tick does: nothing with a period of 0, one count, or a reload and a volume step. -/
theorem envelopeClock_cases (p : Params) (e : Envelope) :
    (e.volumePeriod = 0#3 ∧ e.clock p = e)
      ∨ (e.volumePeriod ≠ 0#3 ∧ 1 < e.volumeCounter ∧ e.clock p = { e with volumeCounter := e.volumeCounter - 1 })
      ∨ (e.volumePeriod ≠ 0#3 ∧ e.volumeCounter ≤ 1
        ∧ e.clock p = Envelope.stepVolume p { e with volumeCounter := e.volumePeriod.toNat }) := by
  unfold Envelope.clock
  by_cases h0 : e.volumePeriod = 0#3
  · exact .inl ⟨h0, if_pos h0⟩
  · rw [if_neg h0]
    rcases Nat.lt_or_ge 1 e.volumeCounter with h | h
    · rw [countdown_counts h]
      exact .inr (.inl ⟨h0, h, rfl⟩)
    · rw [countdown_expires h]
      exact .inr (.inr ⟨h0, h, rfl⟩)

/-- The three fields NRx2 sets are what no envelope clock writes. -/
theorem envelopeClock_fields (p : Params) (e : Envelope) :
    (e.clock p).volumeInit = e.volumeInit ∧ (e.clock p).envDirection = e.envDirection
      ∧ (e.clock p).volumePeriod = e.volumePeriod := by
  rcases envelopeClock_cases p e with ⟨-, h⟩ | ⟨-, -, h⟩ | ⟨-, -, h⟩
  · rw [h]; exact ⟨rfl, rfl, rfl⟩
  · rw [h]; exact ⟨rfl, rfl, rfl⟩
  · rw [h]
    rcases stepVolume_cases p { e with volumeCounter := e.volumePeriod.toNat } with
      ⟨-, -, h⟩ | ⟨-, -, h⟩ | ⟨-, -, h⟩ <;> (rw [h]; exact ⟨rfl, rfl, rfl⟩)

/-! ## Each unit keeps its part of the invariant -/

theorem clockLength_cases (c : Channel) :
    (¬ (c.lengthEnabled = true ∧ 0 < c.lengthCounter) ∧ c.clockLength = c)
      ∨ (c.lengthEnabled = true ∧ c.lengthCounter = 1
        ∧ c.clockLength = { c with lengthCounter := 0, enabled := false })
      ∨ (c.lengthEnabled = true ∧ 1 < c.lengthCounter
        ∧ c.clockLength = { c with lengthCounter := c.lengthCounter - 1 }) := by
  unfold Channel.clockLength
  by_cases h : c.lengthEnabled = true ∧ c.lengthCounter > 0
  · rw [if_pos h]
    rcases Nat.lt_or_ge 1 c.lengthCounter with h1 | h1
    · refine .inr (.inr ⟨h.1, h1, ?_⟩)
      simp only
      rw [if_neg (by omega)]
    · have h2 : c.lengthCounter = 1 := by omega
      exact .inr (.inl ⟨h.1, h2, by simp [h2]⟩)
  · exact .inl ⟨h, if_neg h⟩

theorem clockLength_inv {lenMax periodMax : Nat} {c : Channel} (h : c.Inv lenMax periodMax) :
    c.clockLength.Inv lenMax periodMax := by
  obtain ⟨h1, h2, h3⟩ := h
  rcases clockLength_cases c with ⟨-, h⟩ | ⟨-, -, h⟩ | ⟨-, -, h⟩ <;> rw [h]
  · exact ⟨h1, h2, h3⟩
  · exact ⟨fun _ => rfl, Nat.zero_le _, h3⟩
  · exact ⟨h1, by dsimp only; omega, h3⟩

theorem writeDac_inv {lenMax periodMax : Nat} {c : Channel} (dac : Bool) (h : c.Inv lenMax periodMax) :
    (c.writeDac dac).Inv lenMax periodMax := by
  refine ⟨?_, h.2⟩
  cases dac
  · exact fun _ => rfl
  · exact fun hd => absurd hd (by simp [Channel.writeDac])

theorem channelTrigger_inv {lenMax periodMax reload : Nat} {c : Channel} (hr : reload ≤ periodMax)
    (h : c.Inv lenMax periodMax) : (c.trigger lenMax reload).Inv lenMax periodMax := by
  refine ⟨fun hd => hd, ?_, hr⟩
  have := h.2.1
  simp only [Channel.trigger]
  split <;> omega

theorem envelopeTrigger_inv {p : Params} {e : Envelope} (h : e.Inv p) : (e.trigger p).Inv p := by
  have h1 := e.volumeInit.isLt
  have h2 := e.volumePeriod.isLt
  refine ⟨?_, ?_, fun hp => ?_⟩
  · simp only [Envelope.trigger]; omega
  · simp only [Envelope.trigger]; omega
  · simp only [Envelope.trigger, hp]; exact h.2.2 hp

theorem envelopeClock_inv {p : Params} {e : Envelope} (h : e.Inv p) : (e.clock p).Inv p := by
  obtain ⟨h1, h2, h3⟩ := h
  have hv := e.volumePeriod.isLt
  rcases envelopeClock_cases p e with ⟨-, h⟩ | ⟨-, -, h⟩ | ⟨-, -, h⟩ <;> rw [h]
  · exact ⟨h1, h2, h3⟩
  · exact ⟨h1, by dsimp only; omega, h3⟩
  · rcases stepVolume_cases p { e with volumeCounter := e.volumePeriod.toNat } with
      ⟨-, -, h⟩ | ⟨-, hm, h⟩ | ⟨-, -, h⟩ <;> rw [h]
    · exact ⟨h1, by dsimp only; omega, h3⟩
    · refine ⟨?_, by dsimp only; omega, h3⟩
      dsimp only at hm ⊢
      by_cases hd : e.envDirection = true
      · rw [if_pos hd] at hm ⊢; omega
      · rw [if_neg hd] at hm ⊢; omega
    · exact ⟨h1, by dsimp only; omega, fun hp => by simp [hp, h3 hp]⟩

theorem pulseReload_range (f : BitVec 11) : 4 ≤ pulseReload f ∧ pulseReload f ≤ 8192 := by
  have := f.isLt
  unfold pulseReload
  omega

theorem waveReload_range (f : BitVec 11) : 2 ≤ waveReload f ∧ waveReload f ≤ 4096 := by
  have := f.isLt
  unfold waveReload
  omega

theorem le_foldr_max {l : List Nat} {x : Nat} (h : x ∈ l) : x ≤ l.foldr max 0 := by
  induction l with
  | nil => cases h
  | cons y l ih =>
    rcases List.mem_cons.1 h with rfl | h
    · exact Nat.le_max_left _ _
    · exact Nat.le_trans (ih h) (Nat.le_max_right _ _)

/-- A noise reload is at most the table's greatest value at shift 15. -/
theorem noiseReload_le (p : Params) (c : Noise) : noiseReload p c ≤ noiseReloadMax p := by
  have hs := c.clockShift.isLt
  unfold noiseReload noiseReloadMax
  rw [Nat.shiftLeft_eq, Nat.shiftLeft_eq]
  refine Nat.mul_le_mul (le_foldr_max ?_) (Nat.pow_le_pow_right (by decide) (by omega))
  rw [Vector.mem_toList_iff]
  exact Vector.getElem_mem _

end Sys2Proof.Machine
end

