-- ==== Sys2Proof/Laws/Cycle.lean ====
section
/-! SUPPORT. Everything one clock cycle writes, unit by unit: the channels' common fields, and all the rest but the sweep. -/

namespace Sys2Proof.Machine

/-! ## The wave timer -/

/-- A wave timer above 1 counts. -/
theorem wave_counts {c : Wave} (h : 1 < c.period) : c.clockTimer = { c with period := c.period - 1 } := by
  simp [Wave.clockTimer, countdown_counts h]

/-- A wave timer at 0 or 1 expires: the pointer advances, then the sample is fetched (41_wave R183). -/
theorem wave_expires {c : Wave} (h : c.period ≤ 1) :
    c.clockTimer = { c with
      period := waveReload c.frequency
      sampleNibble := c.sampleNibble + 1#5
      sampleBuffer := Memory.sample c.waveRam (c.sampleNibble + 1#5) } := by
  simp only [Wave.clockTimer, countdown_expires h, if_true]
  rfl

/-- What the wave timer leaves. -/
theorem wave_clockTimer_leaves (c : Wave) :
    c.clockTimer.lengthCounter = c.lengthCounter ∧ c.clockTimer.enabled = c.enabled
      ∧ c.clockTimer.dacEnabled = c.dacEnabled ∧ c.clockTimer.lengthEnabled = c.lengthEnabled
      ∧ c.clockTimer.waveRam = c.waveRam ∧ c.clockTimer.frequency = c.frequency
      ∧ c.clockTimer.volumeCode = c.volumeCode := by
  rcases Nat.lt_or_ge 1 c.period with h | h
  · rw [wave_counts h]; exact ⟨rfl, rfl, rfl, rfl, rfl, rfl, rfl⟩
  · rw [wave_expires h]; exact ⟨rfl, rfl, rfl, rfl, rfl, rfl, rfl⟩

/-- A sample as a quotient or a remainder of its byte (20_memory R65). -/
theorem sample_toNat (m : Memory) (n : BitVec 5) :
    (Memory.sample m n).toNat
      = if n.toNat % 2 = 0 then (Memory.read m (0xFF30 + n.toNat / 2)).toNat / 16
        else (Memory.read m (0xFF30 + n.toNat / 2)).toNat % 16 := by
  unfold Memory.sample
  rw [Nat.shiftRight_eq_div_pow]
  have := (Memory.read m (0xFF30 + n.toNat / 2)).isLt
  dsimp only
  split <;> simp [BitVec.extractLsb'_toNat, Nat.shiftRight_eq_div_pow]
  omega

/-! ## A cycle -/

/-- What a length clock leaves, and that it can only lower the counter and clear the flag. -/
theorem clockLength_leaves (c : Channel) :
    c.clockLength.lengthCounter ≤ c.lengthCounter ∧ (c.clockLength.enabled = true → c.enabled = true)
      ∧ c.clockLength.dacEnabled = c.dacEnabled ∧ c.clockLength.lengthEnabled = c.lengthEnabled
      ∧ c.clockLength.period = c.period := by
  rcases clockLength_cases c with ⟨-, h⟩ | ⟨-, -, h⟩ | ⟨-, -, h⟩ <;> rw [h] <;> simp

/-- The common fields after a cycle: the timers', and on a length tick the length clock's; a sweep can clear channel 1's
flag besides. -/
theorem cycle_channels (p : Params) (a : Apu) :
    let b := a.clockTimers p
    let clock (c : Channel) : Channel := if a.fs.period ≤ 1 ∧ a.fs.frame.toNat % 2 = 0 then c.clockLength else c
    ((a.cycle p).ch1.toChannel = clock b.ch1.toChannel
        ∨ (a.cycle p).ch1.toChannel = { clock b.ch1.toChannel with enabled := false })
      ∧ (a.cycle p).ch2.toChannel = clock b.ch2.toChannel
      ∧ (a.cycle p).ch3.toChannel = clock b.ch3.toChannel
      ∧ (a.cycle p).ch4.toChannel = clock b.ch4.toChannel := by
  intro b clock
  rcases Nat.lt_or_ge 1 a.fs.period with h1 | h1
  · have : ¬ (a.fs.period ≤ 1 ∧ a.fs.frame.toNat % 2 = 0) := by omega
    simp only [clock, this, if_false]
    rw [cycle_noTick h1]
    exact ⟨.inl rfl, rfl, rfl, rfl⟩
  · rw [cycle_tick h1]
    let u := (a.clockTimers p).setFs ⟨8192, a.fs.frame + 1#3⟩
    rcases tick_cases p a.fs.frame u with ⟨h, -, -, h4⟩ | ⟨h, h4⟩ | ⟨h, -, -, h4⟩ | ⟨h, -, -, h4⟩ <;> rw [h4]
    · have : ¬ (a.fs.period ≤ 1 ∧ a.fs.frame.toNat % 2 = 0) := by omega
      simp only [clock, this, if_false]
      exact ⟨.inl rfl, rfl, rfl, rfl⟩
    · have : ¬ (a.fs.period ≤ 1 ∧ a.fs.frame.toNat % 2 = 0) := by omega
      simp only [clock, this, if_false]
      exact ⟨.inl rfl, rfl, rfl, rfl⟩
    · have : a.fs.period ≤ 1 ∧ a.fs.frame.toNat % 2 = 0 := ⟨h1, h⟩
      simp only [clock, this]
      exact ⟨.inl rfl, rfl, rfl, rfl⟩
    · have : a.fs.period ≤ 1 ∧ a.fs.frame.toNat % 2 = 0 := ⟨h1, h⟩
      simp only [clock, this]
      rcases clockSweep_cases p u.clockLengths with ⟨-, h⟩ | ⟨-, -, h⟩ | ⟨-, -, h⟩ <;> rw [h]
      · exact ⟨.inl rfl, rfl, rfl, rfl⟩
      · exact ⟨.inl rfl, rfl, rfl, rfl⟩
      · rcases applySweep_cases p (sweepTarget u.clockLengths.sweep u.clockLengths.ch1.frequency)
          (u.clockLengths.mapSweep fun w => { w with sweepCounter := w.sweepTime.toNat }) with
          ⟨-, h⟩ | ⟨-, -, h⟩ | ⟨-, -, h⟩ | ⟨-, -, h⟩ <;> rw [h]
        · exact ⟨.inl rfl, rfl, rfl, rfl⟩
        · exact ⟨.inl rfl, rfl, rfl, rfl⟩
        · exact ⟨.inl rfl, rfl, rfl, rfl⟩
        · exact ⟨.inr rfl, rfl, rfl, rfl⟩

/-- Everything else after a cycle, but the sweep's fields, channel 1's frequency and the fault mark. -/
theorem cycle_rest (p : Params) (a : Apu) :
    let b := a.clockTimers p
    let u := a.cycle p
    let clock (e : Envelope) : Envelope := if a.fs.period ≤ 1 ∧ a.fs.frame.toNat = 7 then e.clock p else e
    (u.ch1.toEnvelope = clock a.ch1.toEnvelope ∧ u.ch2.toEnvelope = clock a.ch2.toEnvelope
        ∧ u.ch4.toEnvelope = clock a.ch4.toEnvelope)
      ∧ u.fs = (if a.fs.period ≤ 1 then ⟨8192, a.fs.frame + 1#3⟩ else ⟨a.fs.period - 1, a.fs.frame⟩)
      ∧ (u.ch3.frequency = b.ch3.frequency ∧ u.ch3.waveRam = b.ch3.waveRam
        ∧ u.ch3.sampleNibble = b.ch3.sampleNibble ∧ u.ch3.sampleBuffer = b.ch3.sampleBuffer
        ∧ u.ch3.volumeCode = b.ch3.volumeCode ∧ u.ch3.period = b.ch3.period)
      ∧ (u.ch4.lfsr = b.ch4.lfsr ∧ u.ch4.clockShift = b.ch4.clockShift ∧ u.ch4.divisorCode = b.ch4.divisorCode
        ∧ u.ch4.widthMode = b.ch4.widthMode ∧ u.ch4.period = b.ch4.period)
      ∧ (u.ch1.duty = b.ch1.duty ∧ u.ch1.dutyIdx = b.ch1.dutyIdx ∧ u.ch1.period = b.ch1.period)
      ∧ (u.ch2.duty = b.ch2.duty ∧ u.ch2.dutyIdx = b.ch2.dutyIdx ∧ u.ch2.frequency = b.ch2.frequency
        ∧ u.ch2.period = b.ch2.period)
      ∧ u.mix = a.mix ∧ u.power = a.power ∧ u.refusal = a.refusal := by
  intro b u clock
  have cl (c : Channel) : c.clockLength.period = c.period := (clockLength_leaves c).2.2.2.2
  rcases Nat.lt_or_ge 1 a.fs.period with h1 | h1
  · have : ¬ (a.fs.period ≤ 1 ∧ a.fs.frame.toNat = 7) := by omega
    simp only [clock, if_false, u, show ¬ a.fs.period ≤ 1 by omega]
    rw [cycle_noTick h1]
    simp [b, Apu.clockTimers, Pulse.clockTimer, Noise.clockTimer]
  · simp only [u]
    rw [cycle_tick h1, if_pos h1]
    let v := (a.clockTimers p).setFs ⟨8192, a.fs.frame + 1#3⟩
    rcases tick_cases p a.fs.frame v with ⟨h, h', -, h4⟩ | ⟨h, h4⟩ | ⟨h, -, h', h4⟩ | ⟨h, -, h', h4⟩ <;> rw [h4]
    · have : ¬ (a.fs.period ≤ 1 ∧ a.fs.frame.toNat = 7) := by omega
      simp [clock, this, b, v, Apu.clockTimers, Pulse.clockTimer, Noise.clockTimer]
    · have : a.fs.period ≤ 1 ∧ a.fs.frame.toNat = 7 := ⟨h1, h⟩
      simp [clock, this, b, v, Apu.clockTimers, Pulse.clockTimer, Noise.clockTimer, Apu.clockEnvelopes]
    · have : ¬ (a.fs.period ≤ 1 ∧ a.fs.frame.toNat = 7) := by omega
      simp [clock, this, b, v, Apu.clockTimers, Pulse.clockTimer, Noise.clockTimer, Apu.clockLengths, cl]
    · have : ¬ (a.fs.period ≤ 1 ∧ a.fs.frame.toNat = 7) := by omega
      rcases clockSweep_cases p v.clockLengths with ⟨-, h⟩ | ⟨-, -, h⟩ | ⟨-, -, h⟩ <;> rw [h]
      · simp [clock, this, b, v, Apu.clockTimers, Pulse.clockTimer, Noise.clockTimer, Apu.clockLengths, cl]
      · simp [clock, this, b, v, Apu.clockTimers, Pulse.clockTimer, Noise.clockTimer, Apu.clockLengths, cl]
      · rcases applySweep_cases p (sweepTarget v.clockLengths.sweep v.clockLengths.ch1.frequency)
          (v.clockLengths.mapSweep fun w => { w with sweepCounter := w.sweepTime.toNat }) with
          ⟨-, h⟩ | ⟨-, -, h⟩ | ⟨-, -, h⟩ | ⟨-, -, h⟩ <;> rw [h]
        all_goals simp [clock, this, b, v, Apu.clockTimers, Pulse.clockTimer, Noise.clockTimer, Apu.clockLengths, cl]

end Sys2Proof.Machine
end

