-- ==== Sys2Proof/Laws/Operands.lean ====
section
/-! SUPPORT. What each operand form is in the spec's notation `d[hi:lo]` (00_scope R10), and each natural value as a sum. -/

namespace Sys2Proof.Machine

/-- A field of the data byte, as the spec writes it. -/
theorem extract_eq_bits (d : Byte) (lo len : Nat) (h : 0 < len) :
    d.extractLsb' lo len = BitVec.ofNat len (bits d (lo + len - 1) lo) := by
  apply BitVec.eq_of_toNat_eq
  rw [BitVec.extractLsb'_toNat, Nat.shiftRight_eq_div_pow, BitVec.toNat_ofNat, bits,
    show lo + len - 1 - lo + 1 = len by omega, Nat.mod_mod]

/-- A bit of the data byte, as the spec writes it. -/
theorem getLsbD_eq_bit (d : Byte) (i : Nat) : d.getLsbD i = bit d i := by
  rw [BitVec.getLsbD, Nat.testBit_eq_decide_div_mod_eq, bit]
  rfl

theorem bits_lt (d : Byte) (hi lo : Nat) : bits d hi lo < 2 ^ (hi - lo + 1) := Nat.mod_lt _ (by positivity)

theorem dutyField_eq (d : Byte) : dutyField d = BitVec.ofNat 2 (bits d 7 6) := extract_eq_bits d 6 2 (by decide)
theorem volumeInitField_eq (d : Byte) : volumeInitField d = BitVec.ofNat 4 (bits d 7 4) :=
  extract_eq_bits d 4 4 (by decide)
theorem envDirectionField_eq (d : Byte) : envDirectionField d = bit d 3 := getLsbD_eq_bit d 3
theorem volumePeriodField_eq (d : Byte) : volumePeriodField d = BitVec.ofNat 3 (bits d 2 0) :=
  extract_eq_bits d 0 3 (by decide)
theorem triggerField_eq (d : Byte) : triggerField d = bit d 7 := getLsbD_eq_bit d 7
theorem lengthEnableField_eq (d : Byte) : lengthEnableField d = bit d 6 := getLsbD_eq_bit d 6
theorem sweepTimeField_eq (d : Byte) : sweepTimeField d = BitVec.ofNat 3 (bits d 6 4) :=
  extract_eq_bits d 4 3 (by decide)
theorem sweepDirectionField_eq (d : Byte) : sweepDirectionField d = bit d 3 := getLsbD_eq_bit d 3
theorem sweepShiftsField_eq (d : Byte) : sweepShiftsField d = BitVec.ofNat 3 (bits d 2 0) :=
  extract_eq_bits d 0 3 (by decide)
theorem waveDacField_eq (d : Byte) : waveDacField d = bit d 7 := getLsbD_eq_bit d 7
theorem volumeCodeField_eq (d : Byte) : volumeCodeField d = BitVec.ofNat 2 (bits d 6 5) :=
  extract_eq_bits d 5 2 (by decide)
theorem clockShiftField_eq (d : Byte) : clockShiftField d = BitVec.ofNat 4 (bits d 7 4) :=
  extract_eq_bits d 4 4 (by decide)
theorem widthModeField_eq (d : Byte) : widthModeField d = bit d 3 := getLsbD_eq_bit d 3
theorem divisorCodeField_eq (d : Byte) : divisorCodeField d = BitVec.ofNat 3 (bits d 2 0) :=
  extract_eq_bits d 0 3 (by decide)
theorem vinLeftField_eq (d : Byte) : vinLeftField d = bit d 7 := getLsbD_eq_bit d 7
theorem leftVolumeField_eq (d : Byte) : leftVolumeField d = BitVec.ofNat 3 (bits d 6 4) :=
  extract_eq_bits d 4 3 (by decide)
theorem vinRightField_eq (d : Byte) : vinRightField d = bit d 3 := getLsbD_eq_bit d 3
theorem rightVolumeField_eq (d : Byte) : rightVolumeField d = BitVec.ofNat 3 (bits d 2 0) :=
  extract_eq_bits d 0 3 (by decide)
theorem powerField_eq (d : Byte) : powerField d = bit d 7 := getLsbD_eq_bit d 7
theorem routeLeftField_eq (d : Byte) : routeLeftField d = ⟨bit d 4, bit d 5, bit d 6, bit d 7⟩ := by
  simp only [routeLeftField, getLsbD_eq_bit]
theorem routeRightField_eq (d : Byte) : routeRightField d = ⟨bit d 0, bit d 1, bit d 2, bit d 3⟩ := by
  simp only [routeRightField, getLsbD_eq_bit]

/-- The DAC field: `d[7:3] ≠ 0` (30_encoding R86). -/
theorem envDacField_eq (d : Byte) : envDacField d = (bits d 7 3 != 0) := by
  have h := bits_lt d 7 3
  rw [envDacField, extract_eq_bits d 3 5 (by decide), Bool.eq_iff_iff, bne_iff_ne, bne_iff_ne, not_iff_not]
  constructor
  · intro h0
    have := congrArg BitVec.toNat h0
    rw [BitVec.toNat_ofNat, Nat.mod_eq_of_lt h] at this
    simpa using this
  · intro h0
    rw [show (3 + 5 - 1) = 7 from rfl, h0]

theorem lengthLoad64_eq (d : Byte) : lengthLoad64 d = 64 - bits d 5 0 := by
  have h := bits_lt d 5 0
  rw [lengthLoad64, extract_eq_bits d 0 6 (by decide), BitVec.toNat_ofNat, Nat.mod_eq_of_lt h]

/-- A length load of NR11, NR21 or NR41 is in 1..64 (30_encoding R88). -/
theorem lengthLoad64_range (d : Byte) : 1 ≤ lengthLoad64 d ∧ lengthLoad64 d ≤ 64 := by
  have h := bits_lt d 5 0
  rw [lengthLoad64_eq]
  omega

/-- A length load of NR31 is in 1..256 (R88). -/
theorem lengthLoad256_range (d : Byte) : 1 ≤ lengthLoad256 d ∧ lengthLoad256 d ≤ 256 := by
  have h := d.isLt
  unfold lengthLoad256
  omega

/-- NRx3 (30_encoding R87). -/
theorem frequencyLow_eq (f : BitVec 11) (d : Byte) :
    frequencyLow f d = BitVec.ofNat 11 (f.toNat / 256 * 256 + d.toNat) := by
  apply BitVec.eq_of_toNat_eq
  have hf := f.isLt
  have hd := d.isLt
  rw [frequencyLow, append_toNat, BitVec.extractLsb'_toNat, Nat.shiftRight_eq_div_pow, BitVec.toNat_ofNat]
  omega

/-- NRx4 (30_encoding R87). -/
theorem frequencyHigh_eq (f : BitVec 11) (d : Byte) :
    frequencyHigh f d = BitVec.ofNat 11 (256 * bits d 2 0 + f.toNat % 256) := by
  apply BitVec.eq_of_toNat_eq
  have hb := bits_lt d 2 0
  rw [frequencyHigh, append_toNat, extract_eq_bits d 0 3 (by decide), BitVec.extractLsb'_toNat,
    Nat.shiftRight_eq_div_pow, BitVec.toNat_ofNat, BitVec.toNat_ofNat, Nat.mod_eq_of_lt hb]
  omega

/-! ## Natural values as sums -/

theorem ofBool_toNat (b : Bool) : (BitVec.ofBool b).toNat = b.toNat := by cases b <;> rfl

theorem naturalSweep_toNat (w : Sweep) :
    (naturalSweep w).toNat = 16 * w.sweepTime.toNat + 8 * w.sweepDirection.toNat + w.sweepShifts.toNat := by
  simp only [naturalSweep, append_toNat, ofBool_toNat, BitVec.toNat_ofNat]
  omega

theorem naturalDuty_toNat (c : Pulse) : (naturalDuty c).toNat = 64 * c.duty.toNat := by
  simp only [naturalDuty, append_toNat, BitVec.toNat_ofNat]
  omega

theorem naturalEnvelope_toNat (e : Envelope) :
    (naturalEnvelope e).toNat = 16 * e.volumeInit.toNat + 8 * e.envDirection.toNat + e.volumePeriod.toNat := by
  simp only [naturalEnvelope, append_toNat, ofBool_toNat]
  omega

theorem naturalControl_toNat (c : Channel) : (naturalControl c).toNat = 64 * c.lengthEnabled.toNat := by
  simp only [naturalControl, append_toNat, ofBool_toNat, BitVec.toNat_ofNat]
  omega

theorem naturalWavePower_toNat (c : Wave) : (naturalWavePower c).toNat = 128 * c.enabled.toNat := by
  simp only [naturalWavePower, append_toNat, ofBool_toNat, BitVec.toNat_ofNat]
  omega

theorem naturalWaveVolume_toNat (c : Wave) : (naturalWaveVolume c).toNat = 32 * c.volumeCode.toNat := by
  simp only [naturalWaveVolume, append_toNat, BitVec.toNat_ofNat]
  omega

theorem naturalPolynomial_toNat (c : Noise) :
    (naturalPolynomial c).toNat = 16 * c.clockShift.toNat + 8 * c.widthMode.toNat + c.divisorCode.toNat := by
  simp only [naturalPolynomial, append_toNat, ofBool_toNat]
  omega

theorem naturalMasterVolume_toNat (m : Mixer) :
    (naturalMasterVolume m).toNat
      = 128 * m.vinLeft.toNat + 16 * m.leftVolume.toNat + 8 * m.vinRight.toNat + m.rightVolume.toNat := by
  simp only [naturalMasterVolume, append_toNat, ofBool_toNat]
  omega

theorem routingBits_toNat (r : Routing) :
    (routingBits r).toNat = r.ch1.toNat + 2 * r.ch2.toNat + 4 * r.ch3.toNat + 8 * r.ch4.toNat := by
  simp only [routingBits, append_toNat, ofBool_toNat]
  omega

theorem naturalRouting_toNat (m : Mixer) :
    (naturalRouting m).toNat = 16 * (routingBits m.routeLeft).toNat + (routingBits m.routeRight).toNat := by
  simp only [naturalRouting, append_toNat]
  omega

theorem naturalStatus_toNat (a : Apu) :
    (naturalStatus a).toNat = 128 * a.power.toNat
      + (a.ch1.enabled.toNat + 2 * a.ch2.enabled.toNat + 4 * a.ch3.enabled.toNat + 8 * a.ch4.enabled.toNat) := by
  simp only [naturalStatus, append_toNat, ofBool_toNat, BitVec.toNat_ofNat]
  omega

/-- Or with a value that shares no bit is addition. -/
theorem or_eq_ofNat_add {x m : Byte} {n k : Nat} (hx : x.toNat = n) (hm : m.toNat = k) (hd : x &&& m = 0#8) :
    x ||| m = BitVec.ofNat 8 (k + n) := by
  rw [← BitVec.add_eq_or_of_and_eq_zero x m hd]
  apply BitVec.eq_of_toNat_eq
  rw [BitVec.toNat_add, BitVec.toNat_ofNat, hx, hm, Nat.add_comm]

end Sys2Proof.Machine
end

