-- ==== Sys2Proof/Laws/PerInstr.lean ====
section
/-! SUPPORT. The family of facts stated per operation: the reserved field of every operation's word is 0, and only a WRITE
carries a data byte (30_encoding R80). -/

namespace Sys2Proof.Laws.EncodeReserved

/-- The word of `i` has `z = 0`, and a READ, STEP or SAMPLE word has `data = 0` (R80). -/
def Statement (i : Instr) : Prop :=
  zField (encode i) = 0#6 ∧ (opField (encode i) ≠ 0b01#2 → dataField (encode i) = 0#8)

theorem mkWord_write (a : Addr) (d : Byte) :
    zField (mkWord 0b01#2 0#6 a d) = 0#6
      ∧ (opField (mkWord 0b01#2 0#6 a d) ≠ 0b01#2 → dataField (mkWord 0b01#2 0#6 a d) = 0#8) := by
  simp [zField_mkWord, opField_mkWord]

theorem mkWord_noData (op : BitVec 2) (a : Addr) :
    zField (mkWord op 0#6 a 0#8) = 0#6
      ∧ (opField (mkWord op 0#6 a 0#8) ≠ 0b01#2 → dataField (mkWord op 0#6 a 0#8) = 0#8) := by
  simp [zField_mkWord, dataField_mkWord]

theorem writeNr10 (d : Byte) : Statement (.writeNr10 d) := mkWord_write _ _
theorem readNr10 : Statement .readNr10 := mkWord_noData _ _
theorem writeNr11 (d : Byte) : Statement (.writeNr11 d) := mkWord_write _ _
theorem readNr11 : Statement .readNr11 := mkWord_noData _ _
theorem writeNr12 (d : Byte) : Statement (.writeNr12 d) := mkWord_write _ _
theorem readNr12 : Statement .readNr12 := mkWord_noData _ _
theorem writeNr13 (d : Byte) : Statement (.writeNr13 d) := mkWord_write _ _
theorem readNr13 : Statement .readNr13 := mkWord_noData _ _
theorem writeNr14 (d : Byte) : Statement (.writeNr14 d) := mkWord_write _ _
theorem readNr14 : Statement .readNr14 := mkWord_noData _ _
theorem writeNr21 (d : Byte) : Statement (.writeNr21 d) := mkWord_write _ _
theorem readNr21 : Statement .readNr21 := mkWord_noData _ _
theorem writeNr22 (d : Byte) : Statement (.writeNr22 d) := mkWord_write _ _
theorem readNr22 : Statement .readNr22 := mkWord_noData _ _
theorem writeNr23 (d : Byte) : Statement (.writeNr23 d) := mkWord_write _ _
theorem readNr23 : Statement .readNr23 := mkWord_noData _ _
theorem writeNr24 (d : Byte) : Statement (.writeNr24 d) := mkWord_write _ _
theorem readNr24 : Statement .readNr24 := mkWord_noData _ _
theorem writeNr30 (d : Byte) : Statement (.writeNr30 d) := mkWord_write _ _
theorem readNr30 : Statement .readNr30 := mkWord_noData _ _
theorem writeNr31 (d : Byte) : Statement (.writeNr31 d) := mkWord_write _ _
theorem readNr31 : Statement .readNr31 := mkWord_noData _ _
theorem writeNr32 (d : Byte) : Statement (.writeNr32 d) := mkWord_write _ _
theorem readNr32 : Statement .readNr32 := mkWord_noData _ _
theorem writeNr33 (d : Byte) : Statement (.writeNr33 d) := mkWord_write _ _
theorem readNr33 : Statement .readNr33 := mkWord_noData _ _
theorem writeNr34 (d : Byte) : Statement (.writeNr34 d) := mkWord_write _ _
theorem readNr34 : Statement .readNr34 := mkWord_noData _ _
theorem writeNr41 (d : Byte) : Statement (.writeNr41 d) := mkWord_write _ _
theorem readNr41 : Statement .readNr41 := mkWord_noData _ _
theorem writeNr42 (d : Byte) : Statement (.writeNr42 d) := mkWord_write _ _
theorem readNr42 : Statement .readNr42 := mkWord_noData _ _
theorem writeNr43 (d : Byte) : Statement (.writeNr43 d) := mkWord_write _ _
theorem readNr43 : Statement .readNr43 := mkWord_noData _ _
theorem writeNr44 (d : Byte) : Statement (.writeNr44 d) := mkWord_write _ _
theorem readNr44 : Statement .readNr44 := mkWord_noData _ _
theorem writeNr50 (d : Byte) : Statement (.writeNr50 d) := mkWord_write _ _
theorem readNr50 : Statement .readNr50 := mkWord_noData _ _
theorem writeNr51 (d : Byte) : Statement (.writeNr51 d) := mkWord_write _ _
theorem readNr51 : Statement .readNr51 := mkWord_noData _ _
theorem writeNr52 (d : Byte) : Statement (.writeNr52 d) := mkWord_write _ _
theorem readNr52 : Statement .readNr52 := mkWord_noData _ _
theorem writeWave (i : BitVec 4) (d : Byte) : Statement (.writeWave i d) := mkWord_write _ _
theorem readWave (i : BitVec 4) : Statement (.readWave i) := mkWord_noData _ _
theorem writeUnusedFf15 (d : Byte) : Statement (.writeUnusedFf15 d) := mkWord_write _ _
theorem readUnusedFf15 : Statement .readUnusedFf15 := mkWord_noData _ _
theorem writeUnusedFf1f (d : Byte) : Statement (.writeUnusedFf1f d) := mkWord_write _ _
theorem readUnusedFf1f : Statement .readUnusedFf1f := mkWord_noData _ _
theorem writeUnusedFf27 (d : Byte) : Statement (.writeUnusedFf27 d) := mkWord_write _ _
theorem readUnusedFf27 : Statement .readUnusedFf27 := mkWord_noData _ _
theorem writeUnusedFf28To2f (j : BitVec 3) (d : Byte) : Statement (.writeUnusedFf28To2f j d) := mkWord_write _ _
theorem readUnusedFf28To2f (j : BitVec 3) : Statement (.readUnusedFf28To2f j) := mkWord_noData _ _
theorem writeOutOfWindow (a : Addr) (d : Byte) : Statement (.writeOutOfWindow a d) := mkWord_write _ _
theorem readOutOfWindow (a : Addr) : Statement (.readOutOfWindow a) := mkWord_noData _ _
theorem step : Statement .step := mkWord_noData _ _
theorem sample : Statement .sample := mkWord_noData _ _

end Sys2Proof.Laws.EncodeReserved
end

