-- ==== Sys2Proof/Tests/Slice0.lean ====
section
/-! SUPPORT. The model's own tests: ill-formed operations refused, decoding of words written out from the spec's table, single
steps with the results of spec/95_test_vectors.md, and a witness for the hypotheses of every statement. -/

namespace Sys2Proof.Machine.Tests

open Sys2Proof Sys2Proof.Machine

/-! ## Helpers -/

/-- The word decodes to the operation. -/
def decodesTo (w : Word) (i : Instr) : Bool :=
  match decode w with
  | .ok j => j == i
  | .error _ => false

/-- The outcome is a next state of which `p` holds. -/
def nextIs (o : Host.Outcome State Fault Refusal) (p : State → Bool) : Bool :=
  match o with
  | .next t => p t
  | .fault _ => false
  | .refused _ => false

/-- The outcome is this fault. -/
def faultIs (o : Host.Outcome State Fault Refusal) (r : Fault) : Bool :=
  match o with
  | .next _ => false
  | .fault q => q == r
  | .refused _ => false

/-- The outcome is this refusal. -/
def refusalIs (o : Host.Outcome State Fault Refusal) (r : Refusal) : Bool :=
  match o with
  | .next _ => false
  | .fault _ => false
  | .refused q => q == r

/-- The READ hands the host this byte. -/
def reads (i : Instr) (s : State) (b : Byte) : Bool :=
  nextIs (exec i s) fun t => t.host.replies == [.byte b]

/-- `S1` of 95_test_vectors under parameters `p`: the reset state with `apu.power = 1`. -/
def poweredOn (p : Params) : State := { State.resetWith p with apu := { Apu.reset p with power := true } }

/-- `S1` of 95_test_vectors. -/
def s1 : State := poweredOn Params.default

/-- The default parameters, but for `SWEEP_OVERFLOW`. -/
def overflowing (v : SweepOverflowPolicy) : Params := { Params.default with sweepOverflow := v }

/-- The default parameters, but for `BUS_RANGE_POLICY = ignore`. -/
def ignoring : Params := { Params.default with busRange := .ignore }

/-- The default parameters, but for `POWER_OFF_POLICY = store_only`. -/
def storing : Params := { Params.default with powerOff := .storeOnly }

/-- The default parameters, but for `ENV_FREEZE_LATCH = false`. -/
def unlatched : Params := { Params.default with envFreezeLatch := false }

/-- `s` one STEP before the tick of frame `t`. -/
def atTick (t : BitVec 3) (s : State) : State := { s with apu := { s.apu with fs := ⟨1, t⟩ } }

/-- A channel that is on, with its DAC, its length enabled or not, its counter and its timer. -/
def sounding (lengthEnabled : Bool) (lengthCounter period : Nat) : Channel :=
  ⟨true, true, lengthEnabled, lengthCounter, period⟩

/-- `S1` with channel 1 as given. -/
def withCh1 (f : Pulse → Pulse) : State := { s1 with apu := s1.apu.mapCh1 f }

/-- `S1` with channel 3 as given. -/
def withCh3 (f : Wave → Wave) : State := { s1 with apu := s1.apu.mapCh3 f }

/-- `S1` with channel 4 as given. -/
def withCh4 (f : Noise → Noise) : State := { s1 with apu := s1.apu.mapCh4 f }

/-- One STEP before the tick of frame `t`: channel 1 on at frequency `f`, sweep time 1, this direction and shift. -/
def sweeping (p : Params) (t : BitVec 3) (f : BitVec 11) (subtract : Bool) (shift : BitVec 3) (counter : Nat) : State :=
  let s := atTick t (poweredOn p)
  { s with
    apu := { s.apu with
      ch1 := { s.apu.ch1 with toChannel := sounding false 64 100, frequency := f }
      sweep := ⟨1#3, subtract, shift, counter⟩ } }

/-- One STEP before the envelope tick: channel 1 with this envelope. -/
def enveloped (p : Params) (e : Envelope) : State :=
  let s := atTick 7#3 (poweredOn p)
  { s with apu := s.apu.mapCh1 fun c => { c with toEnvelope := e } }

/-- `s` with the words as the host's program. -/
def issuing (ws : List Word) (s : State) : State := { s with host := { s.host with program := ws } }

/-- `s` with a fault mark, which only a hand-made state holds. -/
def marked (s : State) : State := { s with apu := s.apu.raiseFault (.busRange 0xFF40#16) }

/-- `s` with a refusal mark. -/
def refusedMark (s : State) : State := { s with apu := s.apu.refuse (.reservedOperationBits 0x01FF1200#32) }

/-! ## Well-formedness: each check refuses an ill-formed term -/

/-- 30_encoding R84(b): an out-of-window WRITE never spells an address of the window, at either end of it. -/
theorem test_wf_refuses_window_writes :
    (Instr.writeOutOfWindow 0xFF10#16 0#8).wf = false ∧ (Instr.writeOutOfWindow 0xFF3F#16 0#8).wf = false
      ∧ (Instr.writeOutOfWindow 0xFF0F#16 0#8).wf = true ∧ (Instr.writeOutOfWindow 0xFF40#16 0#8).wf = true := by
  decide

/-- The same for READs. -/
theorem test_wf_refuses_window_reads :
    (Instr.readOutOfWindow 0xFF10#16).wf = false ∧ (Instr.readOutOfWindow 0xFF3F#16).wf = false
      ∧ (Instr.readOutOfWindow 0xFF0F#16).wf = true ∧ (Instr.readOutOfWindow 0xFF40#16).wf = true := by
  decide

/-! ## Decoding: words written out, field by field, from 30_encoding R80 and R90 -/

/-- Words written out from the table of 30_encoding R90 (`op` 31:30, `z` 29:24, `addr` 23:8, `data` 7:0): rows 1 to 18. -/
theorem test_decode_pulse :
    ([
      (0b01000000111111110001000011000101#32, .writeNr10 0xC5#8),
      (0b00000000111111110001000000000000#32, .readNr10),
      (0b01000000111111110001000111000101#32, .writeNr11 0xC5#8),
      (0b00000000111111110001000100000000#32, .readNr11),
      (0b01000000111111110001001011000101#32, .writeNr12 0xC5#8),
      (0b00000000111111110001001000000000#32, .readNr12),
      (0b01000000111111110001001111000101#32, .writeNr13 0xC5#8),
      (0b00000000111111110001001100000000#32, .readNr13),
      (0b01000000111111110001010011000101#32, .writeNr14 0xC5#8),
      (0b00000000111111110001010000000000#32, .readNr14),
      (0b01000000111111110001011011000101#32, .writeNr21 0xC5#8),
      (0b00000000111111110001011000000000#32, .readNr21),
      (0b01000000111111110001011111000101#32, .writeNr22 0xC5#8),
      (0b00000000111111110001011100000000#32, .readNr22),
      (0b01000000111111110001100011000101#32, .writeNr23 0xC5#8),
      (0b00000000111111110001100000000000#32, .readNr23),
      (0b01000000111111110001100111000101#32, .writeNr24 0xC5#8),
      (0b00000000111111110001100100000000#32, .readNr24)] : List (Word × Instr)).all (fun r => decodesTo r.1 r.2) = true := by
  decide

/-- Words written out from the table of 30_encoding R90 (`op` 31:30, `z` 29:24, `addr` 23:8, `data` 7:0): rows 19 to 36. -/
theorem test_decode_waveNoise :
    ([
      (0b01000000111111110001101011000101#32, .writeNr30 0xC5#8),
      (0b00000000111111110001101000000000#32, .readNr30),
      (0b01000000111111110001101111000101#32, .writeNr31 0xC5#8),
      (0b00000000111111110001101100000000#32, .readNr31),
      (0b01000000111111110001110011000101#32, .writeNr32 0xC5#8),
      (0b00000000111111110001110000000000#32, .readNr32),
      (0b01000000111111110001110111000101#32, .writeNr33 0xC5#8),
      (0b00000000111111110001110100000000#32, .readNr33),
      (0b01000000111111110001111011000101#32, .writeNr34 0xC5#8),
      (0b00000000111111110001111000000000#32, .readNr34),
      (0b01000000111111110010000011000101#32, .writeNr41 0xC5#8),
      (0b00000000111111110010000000000000#32, .readNr41),
      (0b01000000111111110010000111000101#32, .writeNr42 0xC5#8),
      (0b00000000111111110010000100000000#32, .readNr42),
      (0b01000000111111110010001011000101#32, .writeNr43 0xC5#8),
      (0b00000000111111110010001000000000#32, .readNr43),
      (0b01000000111111110010001111000101#32, .writeNr44 0xC5#8),
      (0b00000000111111110010001100000000#32, .readNr44)] : List (Word × Instr)).all (fun r => decodesTo r.1 r.2) = true := by
  decide

/-- Words written out from the table of 30_encoding R90 (`op` 31:30, `z` 29:24, `addr` 23:8, `data` 7:0): rows 37 to 56. -/
theorem test_decode_restOfTable :
    ([
      (0b01000000111111110010010011000101#32, .writeNr50 0xC5#8),
      (0b00000000111111110010010000000000#32, .readNr50),
      (0b01000000111111110010010111000101#32, .writeNr51 0xC5#8),
      (0b00000000111111110010010100000000#32, .readNr51),
      (0b01000000111111110010011011000101#32, .writeNr52 0xC5#8),
      (0b00000000111111110010011000000000#32, .readNr52),
      (0b01000000111111110011101011000101#32, .writeWave 0xA#4 0xC5#8),
      (0b00000000111111110011101000000000#32, .readWave 0xA#4),
      (0b01000000111111110001010111000101#32, .writeUnusedFf15 0xC5#8),
      (0b00000000111111110001010100000000#32, .readUnusedFf15),
      (0b01000000111111110001111111000101#32, .writeUnusedFf1f 0xC5#8),
      (0b00000000111111110001111100000000#32, .readUnusedFf1f),
      (0b01000000111111110010011111000101#32, .writeUnusedFf27 0xC5#8),
      (0b00000000111111110010011100000000#32, .readUnusedFf27),
      (0b01000000111111110010111011000101#32, .writeUnusedFf28To2f 0x6#3 0xC5#8),
      (0b00000000111111110010111000000000#32, .readUnusedFf28To2f 0x6#3),
      (0b01000000100000000000000111000101#32, .writeOutOfWindow 0x8001#16 0xC5#8),
      (0b00000000100000000000000100000000#32, .readOutOfWindow 0x8001#16),
      (0b10000000000000000000000000000000#32, .step),
      (0b11000000000000000000000000000000#32, .sample)] : List (Word × Instr)).all (fun r => decodesTo r.1 r.2) = true := by
  decide

/-- 30_encoding R84(a), vectors E4 to E8: the invalid words, by reason. -/
theorem test_decode_rejects_by_name :
    decode 0x01FF1200#32 = .error .reservedNonzero ∧ decode 0x00FF1201#32 = .error .readWithData
      ∧ decode 0x80000001#32 = .error .stepWithOperand ∧ decode 0x80FF0000#32 = .error .stepWithOperand
      ∧ decode 0xC0000100#32 = .error .sampleWithOperand :=
  ⟨rfl, rfl, rfl, rfl, rfl⟩

/-- The encoder on worked encodings of 30_encoding R96. -/
theorem test_encode_worked :
    encode (.writeNr12 0xF0#8) = 0x40FF12F0#32 ∧ encode .readNr52 = 0x00FF2600#32
      ∧ encode (.writeWave 5#4 0xAB#8) = 0x40FF35AB#32 ∧ encode .step = 0x80000000#32
      ∧ encode .sample = 0xC0000000#32 := by
  decide

/-- The table's numbering of bits is that of the word. -/
theorem test_decodeTableWord :
    decodeTableWord 32 0x40FF1EC7 = some (.writeNr34 0xC7#8) ∧ decodeTableWord 32 0x01FF1200 = none
      ∧ decodeTableWord 32 0x00FF0F00 = some (.readOutOfWindow 0xFF0F#16) := by
  decide

/-! ## The step: E2, E4, E13 of 95_test_vectors -/

/-- E2 through the step, with the word placed where the host issues next. -/
theorem test_step_runs_the_placed_word :
    nextIs (step (s1.withFetchWord 32 0x00FF2600)) fun t => t.host.replies == [.byte 0xF0#8] && t.host.position == 1 := by
  decide

/-- E13, from reset itself: the power gate is shut. -/
theorem test_step_from_reset_is_gated :
    refusalIs (step (State.reset.withFetchWord 32 0x40FF12F0)) (.powerOffUnmodelled 0x40FF12F0#32) = true := by
  decide

/-- E4: an invalid word is refused by the step. -/
theorem test_step_refuses_an_invalid_word :
    refusalIs (step (s1.withFetchWord 32 0x01FF1200)) (.reservedOperationBits 0x01FF1200#32) = true := by
  decide

/-- 70_reset R304: WRITE NR52, 0x80 takes `S0` to `S1`. -/
theorem test_powered_on : nextIs (exec (.writeNr52 0x80#8) State.reset) (· == s1) = true := by
  decide

/-! ## Pulse registers: PW1 to PW12 -/

/-- PW11. -/
theorem test_write_nr10 :
    nextIs (exec (.writeNr10 0xFF#8) s1) (fun t => t.apu.sweep == ⟨7#3, true, 7#3, 0⟩) = true := by
  decide

/-- SW1 before its STEPs: sweep time 1, add, shift 1 reads 0x91. -/
theorem test_read_nr10 :
    reads .readNr10 { s1 with apu := { s1.apu with sweep := ⟨1#3, false, 1#3, 0⟩ } } 0x91#8 = true := by
  decide

/-- PW1, PW2 (X1): 0xFF gives duty 3 and counter 1, 0x00 gives duty 0 and counter 64. -/
theorem test_write_nr11 :
    nextIs (exec (.writeNr11 0xFF#8) s1) (fun t => t.apu.ch1.duty == 3#2 && t.apu.ch1.lengthCounter == 1)
      && nextIs (exec (.writeNr11 0x00#8) s1) (fun t => t.apu.ch1.duty == 0#2 && t.apu.ch1.lengthCounter == 64)
        = true := by
  decide

/-- P1: duty 2 reads 0xBF. -/
theorem test_read_nr11 : reads .readNr11 (withCh1 fun c => { c with duty := 2#2 }) 0xBF#8 = true := by
  decide

/-- PW3, PW4: 0x08 keeps the DAC on, 0x07 turns it off. -/
theorem test_write_nr12 :
    nextIs (exec (.writeNr12 0x08#8) s1) (fun t => t.apu.ch1.dacEnabled && t.apu.ch1.volumeInit == 0#4
        && t.apu.ch1.envDirection && !t.apu.ch1.enabled)
      && nextIs (exec (.writeNr12 0x07#8) (withCh1 fun c => { c with toChannel := sounding false 64 8 }))
        (fun t => !t.apu.ch1.dacEnabled && !t.apu.ch1.enabled && t.apu.ch1.volumePeriod == 7#3) = true := by
  decide

/-- PW12's envelope on channel 1: volume 15, decrease, period 3 reads 0xF3. -/
theorem test_read_nr12 :
    reads .readNr12 (withCh1 fun c => { c with toEnvelope := ⟨4, 15#4, false, 3#3, 2, false⟩ }) 0xF3#8 = true := by
  decide

/-- PW5: 0xFF sets bits 7:0 of the frequency. -/
theorem test_write_nr13 :
    nextIs (exec (.writeNr13 0xFF#8) (withCh1 fun c => { c with frequency := 0x700#11 }))
      (fun t => t.apu.ch1.frequency == 0x7FF#11 && t.apu.ch1.period == 0) = true := by
  decide

/-- PW9. -/
theorem test_read_nr13 : reads .readNr13 (withCh1 fun c => { c with frequency := 0xAA#11 }) 0xFF#8 = true := by
  decide

/-- PW6 and PW7: the trigger with the DAC on, and with the DAC off. -/
theorem test_write_nr14 :
    nextIs (exec (.writeNr14 0x87#8) (withCh1 fun c => { c with frequency := 0x0FF#11, dacEnabled := true, volumeInit := 15#4 }))
        (fun t => t.apu.ch1.toChannel == ⟨true, true, false, 64, 4⟩ && t.apu.ch1.frequency == 2047#11 && t.apu.ch1.volume == 15)
      && nextIs (exec (.writeNr14 0x87#8) (withCh1 fun c => { c with frequency := 0x0FF#11 }))
        (fun t => t.apu.ch1.toChannel == ⟨false, false, false, 64, 4⟩) = true := by
  decide

/-- PW10. -/
theorem test_read_nr14 :
    reads .readNr14 (withCh1 fun c => { c with lengthEnabled := true }) 0xFF#8 && reads .readNr14 s1 0xBF#8 = true := by
  decide

/-- PW12. -/
theorem test_write_nr21_nr22 :
    nextIs (exec (.writeNr21 0x3F#8) s1) (fun t => t.apu.ch2.lengthCounter == 1 && t.apu.ch1 == s1.apu.ch1)
      && nextIs (exec (.writeNr22 0xF3#8) s1) (fun t => t.apu.ch2.volumeInit == 15#4 && t.apu.ch2.volumePeriod == 3#3
        && t.apu.ch2.dacEnabled) = true := by
  decide

/-- PW12: NR23 and NR24; frequency 1792, period 1024. -/
theorem test_write_nr23_nr24 :
    nextIs (exec (.writeNr23 0x00#8) s1) (fun t => t.apu.ch2.frequency == 0#11)
      && nextIs (exec (.writeNr24 0xC7#8) s1)
        (fun t => t.apu.ch2.frequency == 1792#11 && t.apu.ch2.period == 1024 && t.apu.ch2.lengthEnabled) = true := by
  decide

/-- PW12's READs. -/
theorem test_read_ch2 :
    let s : State := { s1 with apu := s1.apu.mapCh2 fun c =>
      { c with toEnvelope := ⟨15, 15#4, false, 3#3, 3, false⟩, toChannel := ⟨true, true, true, 1, 1024⟩ } }
    reads .readNr21 s 0x3F#8 && reads .readNr22 s 0xF3#8 && reads .readNr23 s 0xFF#8 && reads .readNr24 s 0xFF#8
      && reads .readNr52 s 0xF2#8 = true := by
  decide

/-! ## Wave registers: W1 to W11 -/

/-- W1: turning the DAC off stops the channel; turning it on does not start it. -/
theorem test_write_nr30 :
    nextIs (exec (.writeNr30 0x00#8) (withCh3 fun c => { c with toChannel := sounding false 256 2 }))
        (fun t => !t.apu.ch3.dacEnabled && !t.apu.ch3.enabled)
      && nextIs (exec (.writeNr30 0x80#8) s1) (fun t => t.apu.ch3.dacEnabled && !t.apu.ch3.enabled) = true := by
  decide

/-- W1, W2: NR30 bit 7 is `enabled`. -/
theorem test_read_nr30 :
    reads .readNr30 (withCh3 fun c => { c with dacEnabled := true }) 0x7F#8
      && reads .readNr30 (withCh3 fun c => { c with dacEnabled := true, enabled := true }) 0xFF#8 = true := by
  decide

/-- W3, W4. -/
theorem test_write_nr31 :
    nextIs (exec (.writeNr31 0x00#8) s1) (fun t => t.apu.ch3.lengthCounter == 256)
      && nextIs (exec (.writeNr31 0xFF#8) s1) (fun t => t.apu.ch3.lengthCounter == 1) = true := by
  decide

/-- W5: the write. -/
theorem test_write_nr32 :
    nextIs (exec (.writeNr32 0x40#8) s1) (fun t => t.apu.ch3.volumeCode == 2#2)
      && nextIs (exec (.writeNr32 0xFF#8) s1) (fun t => t.apu.ch3.volumeCode == 3#2) = true := by
  decide

/-- W5: the READ; NR31 and NR33 are write-only. -/
theorem test_read_nr31_nr32_nr33 :
    reads .readNr32 (withCh3 fun c => { c with volumeCode := 1#2 }) 0xBF#8 && reads .readNr32 s1 0x9F#8
      && reads .readNr31 s1 0xFF#8 && reads .readNr33 s1 0xFF#8 = true := by
  decide

/-- W7: NR33 then NR34, the period 2. -/
theorem test_write_nr33_nr34 :
    nextIs (exec (.writeNr33 0xFF#8) s1) (fun t => t.apu.ch3.frequency == 255#11)
      && nextIs (exec (.writeNr34 0x87#8) (withCh3 fun c => { c with frequency := 255#11, dacEnabled := true }))
        (fun t => t.apu.ch3.toChannel == ⟨true, true, false, 256, 2⟩) = true := by
  decide

/-- W10: the trigger restarts the pointer and keeps the buffer. -/
theorem test_nr34_keeps_the_buffer :
    nextIs (exec (.writeNr34 0x87#8) (withCh3 fun c => { c with sampleNibble := 1#5, sampleBuffer := 0xB#4 }))
      (fun t => t.apu.ch3.sampleNibble == 0#5 && t.apu.ch3.sampleBuffer == 0xB#4) = true := by
  decide

/-- W6: buffer 15 under the shift codes 0 to 3 of the normative table (R185, R186). -/
theorem test_wave_digital :
    ([0#2, 1#2, 2#2, 3#2].map fun code =>
        ({ s1.apu.ch3 with sampleBuffer := 15#4, volumeCode := code } : Wave).digital Params.default) = [15, 7, 3, 1] := by
  decide

/-- P2: with the length enabled NR34 reads 0xFF. -/
theorem test_read_nr34 :
    reads .readNr34 (withCh3 fun c => { c with lengthEnabled := true }) 0xFF#8 && reads .readNr34 s1 0xBF#8 = true := by
  decide

/-- E3: the wave RAM takes a WRITE at power 0. -/
theorem test_write_wave :
    nextIs (exec (.writeWave 5#4 0xAB#8) State.reset) (fun t => t.apu.ch3.waveRam == [(0xFF35, 0xAB#8)])
      && nextIs (exec (.writeWave 0#4 0x00#8) (withCh3 fun c =>
          { c with waveRam := [(0xFF30, 0xAB#8)], sampleBuffer := 0xB#4 }))
        (fun t => t.apu.ch3.waveRam == [] && t.apu.ch3.sampleBuffer == 0xB#4) = true := by
  decide

/-- E3: and the READ returns it. -/
theorem test_read_wave :
    reads (.readWave 5#4) (withCh3 fun c => { c with waveRam := [(0xFF35, 0xAB#8)] }) 0xAB#8
      && reads (.readWave 4#4) (withCh3 fun c => { c with waveRam := [(0xFF35, 0xAB#8)] }) 0x00#8 = true := by
  decide

/-! ## Noise registers: N1 to N13 -/

/-- N7: counter 1, and the top bits are ignored. -/
theorem test_write_nr41 :
    nextIs (exec (.writeNr41 0x3F#8) s1) (fun t => t.apu.ch4.lengthCounter == 1)
      && nextIs (exec (.writeNr41 0xC0#8) s1) (fun t => t.apu.ch4.lengthCounter == 64) = true := by
  decide

/-- P3's envelope register: volume 1, increase, period 1. -/
theorem test_write_nr42 :
    nextIs (exec (.writeNr42 0x19#8) s1) (fun t => t.apu.ch4.volumeInit == 1#4 && t.apu.ch4.envDirection
      && t.apu.ch4.volumePeriod == 1#3 && t.apu.ch4.dacEnabled && t.apu.ch4.volume == 0) = true := by
  decide

/-- N4's polynomial register, and N9's. -/
theorem test_write_nr43 :
    nextIs (exec (.writeNr43 0x77#8) s1) (fun t => t.apu.ch4.clockShift == 7#4 && !t.apu.ch4.widthMode
        && t.apu.ch4.divisorCode == 7#3 && t.apu.ch4.period == 0)
      && nextIs (exec (.writeNr43 0x08#8) s1) (fun t => t.apu.ch4.widthMode) = true := by
  decide

/-- N4, N10: the trigger with shift 7 and code 7 gives period 14336 and sets the LFSR. -/
theorem test_write_nr44 :
    nextIs (exec (.writeNr44 0x80#8) (withCh4 fun c =>
        { c with clockShift := 7#4, divisorCode := 7#3, dacEnabled := true, lfsr := 0x1F9F#15 }))
      (fun t => t.apu.ch4.toChannel == ⟨true, true, false, 64, 14336⟩ && t.apu.ch4.lfsr == 0x7FFF#15) = true := by
  decide

/-- N6: shift 15 and code 7 give period 3670016; N13: bits 5:0 are ignored. -/
theorem test_write_nr44_corners :
    nextIs (exec (.writeNr44 0x80#8) (withCh4 fun c => { c with clockShift := 15#4, divisorCode := 7#3 }))
        (fun t => t.apu.ch4.period == 3670016 && !t.apu.ch4.enabled)
      && nextIs (exec (.writeNr44 0x78#8) s1) (fun t => t.apu.ch4 == { s1.apu.ch4 with lengthEnabled := true })
        = true := by
  decide

/-- N4, N7, N13 and P3: the READs. -/
theorem test_read_ch4 :
    let s := withCh4 fun c =>
      { c with toEnvelope := ⟨1, 1#4, true, 1#3, 1, false⟩, clockShift := 7#4, divisorCode := 7#3, lengthEnabled := true }
    reads .readNr41 s 0xFF#8 && reads .readNr42 s 0x19#8 && reads .readNr43 s 0x77#8 && reads .readNr44 s 0xFF#8
      = true := by
  decide

/-- N1 and N2: two steps of each sequence. -/
theorem test_lfsr_steps :
    lfsrStep 0x7FFF#15 false = 0x3FFF#15 ∧ lfsrStep 0x00FF#15 false = 0x007F#15 ∧ lfsrStep 0x7FFF#15 true = 0x3FBF#15
      ∧ lfsrStep 0x0181#15 true = 0x40C0#15 ∧ lfsrStep 0x40C0#15 true = 0x2020#15 := by
  decide

/-! ## Mixer, power, unused addresses and the window: E9 to E20, M1 to M8 -/

/-- M4, M8 (X5): NR50 and NR51. -/
theorem test_write_nr50_nr51 :
    nextIs (exec (.writeNr50 0xF7#8) s1) (fun t => t.apu.mix.vinLeft && t.apu.mix.leftVolume == 7#3
        && !t.apu.mix.vinRight && t.apu.mix.rightVolume == 7#3)
      && nextIs (exec (.writeNr51 0x5A#8) s1) (fun t => t.apu.mix.routeLeft == ⟨true, false, true, false⟩
        && t.apu.mix.routeRight == ⟨false, true, false, true⟩) = true := by
  decide

/-- M4 and M8: read back. -/
theorem test_read_nr50_nr51 :
    let s : State := { s1 with apu := s1.apu.mapMix fun _ =>
      ⟨7#3, 7#3, ⟨true, false, true, false⟩, ⟨false, true, false, true⟩, true, false⟩ }
    reads .readNr50 s 0xF7#8 && reads .readNr51 s 0x5A#8 = true := by
  decide

/-- E14 and E17: a power-off write, under each policy. -/
theorem test_write_nr52 :
    refusalIs (exec (.writeNr52 0x00#8) s1) (.powerOffUnmodelled 0x40FF2600#32)
      && nextIs (exec (.writeNr52 0x00#8) (poweredOn storing)) (fun t => !t.apu.power) = true := by
  decide

/-- M5, E17: channels 1 and 3 on, and powered off. -/
theorem test_read_nr52 :
    reads .readNr52 { s1 with apu := (s1.apu.mapCh1 fun c => { c with enabled := true }).mapCh3 fun c =>
        { c with enabled := true } } 0xF5#8
      && reads .readNr52 State.reset 0x70#8 = true := by
  decide

/-- E15 and E16: 0xFF15 is gated; with the power on its WRITE does nothing. -/
theorem test_write_unused :
    refusalIs (exec (.writeUnusedFf15 0x12#8) State.reset) (.powerOffUnmodelled 0x40FF1512#32)
      && nextIs (exec (.writeUnusedFf15 0x12#8) s1) (· == s1) && nextIs (exec (.writeUnusedFf1f 0x12#8) s1) (· == s1)
      && nextIs (exec (.writeUnusedFf27 0x12#8) State.reset) (· == State.reset)
      && nextIs (exec (.writeUnusedFf28To2f 7#3 0x12#8) State.reset) (· == State.reset) = true := by
  decide

/-- E16. -/
theorem test_read_unused :
    reads .readUnusedFf15 s1 0xFF#8 && reads .readUnusedFf1f s1 0xFF#8 && reads .readUnusedFf27 s1 0xFF#8
      && reads (.readUnusedFf28To2f 2#3) s1 0xFF#8 = true := by
  decide

/-- E9, E10, E11. -/
theorem test_out_of_window_faults :
    faultIs (exec (.writeOutOfWindow 0xFF40#16 0#8) s1) (.busRange 0xFF40#16)
      && faultIs (exec (.readOutOfWindow 0x00FF#16) s1) (.busRange 0x00FF#16)
      && faultIs (exec (.readOutOfWindow 0xFF0F#16) State.reset) (.busRange 0xFF0F#16) = true := by
  decide

/-- E12: no fault, the block unchanged, one byte handed over; nothing is said of the byte. -/
theorem test_out_of_window_ignored :
    ∃ t, exec (.readOutOfWindow 0xFF40#16) (poweredOn ignoring) = .next t ∧ t.apu = (poweredOn ignoring).apu
      ∧ t.host.replies = [.byte (Config.freeByte 0)] :=
  ⟨_, rfl, rfl, rfl⟩

/-- M1 and M2: channel 1 alone at digital 0, routed to both sides, left code 0 and right code 7. -/
theorem test_sample_scales :
    nextIs (exec .sample { s1 with apu := (s1.apu.mapCh1 fun c =>
        { c with enabled := true, duty := 3#2, volume := 15 }).mapMix fun _ =>
        ⟨0#3, 7#3, ⟨true, true, true, true⟩, ⟨true, true, true, true⟩, false, false⟩ })
      (fun t => t.host.replies == [.pair (-1 / 8) (-1)]) = true := by
  decide +kernel

/-- P2 after 8191 STEPs, the wave alone with buffer 15 and code 1: DacMap(7) = −1/15. -/
theorem test_sample_wave :
    nextIs (exec .sample { s1 with apu := (s1.apu.mapCh3 fun c =>
        { c with enabled := true, sampleBuffer := 15#4, volumeCode := 1#2 }).mapMix fun _ =>
        ⟨7#3, 7#3, ⟨false, false, true, false⟩, ⟨false, false, true, false⟩, false, false⟩ })
      (fun t => t.host.replies == [.pair (-1 / 15) (-1 / 15)]) = true := by
  decide +kernel

/-! ## STEP: PT, L, EN, SW, W, N and F vectors -/

/-- PT1, W8, N12: the first STEP after reset. -/
theorem test_step_from_reset :
    nextIs (exec .step State.reset) (fun t => t.apu.ch1.dutyIdx == 1#3 && t.apu.ch2.period == 8192
      && t.apu.ch3.sampleNibble == 1#5 && t.apu.ch3.period == 4096 && t.apu.ch4.lfsr == 0#15 && t.apu.ch4.period == 8)
      = true := by
  decide

/-- F2 and F3: a tick advances the frame, and frame 7 wraps to 0. -/
theorem test_step_frames :
    nextIs (exec .step (atTick 0#3 s1)) (fun t => t.apu.fs == ⟨8192, 1#3⟩)
      && nextIs (exec .step (atTick 7#3 s1)) (fun t => t.apu.fs == ⟨8192, 0#3⟩) = true := by
  decide

/-- L2 and L3: the length tick expires channel 1 only where its length is enabled. -/
theorem test_step_length :
    nextIs (exec .step (atTick 0#3 (withCh1 fun c => { c with toChannel := sounding true 1 100 })))
        (fun t => t.apu.ch1.lengthCounter == 0 && !t.apu.ch1.enabled)
      && nextIs (exec .step (atTick 0#3 (withCh1 fun c => { c with toChannel := sounding false 1 100 })))
        (fun t => t.apu.ch1.lengthCounter == 1 && t.apu.ch1.enabled)
      && nextIs (exec .step (atTick 1#3 (withCh1 fun c => { c with toChannel := sounding true 1 100 })))
        (fun t => t.apu.ch1.lengthCounter == 1 && t.apu.ch1.enabled) = true := by
  decide

/-- EN2 and T4: volume 15 falls to 14; 15 rising stays and freezes. -/
theorem test_step_envelope :
    nextIs (exec .step (enveloped Params.default ⟨15, 15#4, false, 1#3, 1, false⟩)) (fun t => t.apu.ch1.volume == 14)
      && nextIs (exec .step (enveloped Params.default ⟨15, 14#4, true, 1#3, 1, false⟩))
        (fun t => t.apu.ch1.volume == 15 && t.apu.ch1.envFrozen) = true := by
  decide

/-- SW1 and SW5: add gives 1536, subtract 512. -/
theorem test_step_sweep :
    nextIs (exec .step (sweeping Params.default 2#3 1024#11 false 1#3 1))
        (fun t => t.apu.ch1.frequency == 1536#11 && t.apu.sweep.sweepCounter == 1)
      && nextIs (exec .step (sweeping Params.default 2#3 1024#11 true 1#3 1)) (fun t => t.apu.ch1.frequency == 512#11)
        = true := by
  decide

/-- SW2, SW3, SW4: 1536 + 768 = 2304 under the three policies. -/
theorem test_step_sweep_overflow :
    faultIs (exec .step (sweeping Params.default 6#3 1536#11 false 1#3 1)) (.sweepOverflow 2304)
      && nextIs (exec .step (sweeping (overflowing .wrap11) 6#3 1536#11 false 1#3 1))
        (fun t => t.apu.ch1.frequency == 256#11 && t.apu.ch1.enabled)
      && nextIs (exec .step (sweeping (overflowing .disable) 6#3 1536#11 false 1#3 1))
        (fun t => t.apu.ch1.frequency == 1536#11 && !t.apu.ch1.enabled) = true := by
  decide

/-- W9: the pointer advances before the fetch, and odd samples are low nibbles. -/
theorem test_step_wave :
    nextIs (exec .step (withCh3 fun c => { c with period := 1, frequency := 2047#11, waveRam := [(0xFF30, 0xAB#8)] }))
        (fun t => t.apu.ch3.sampleNibble == 1#5 && t.apu.ch3.sampleBuffer == 0xB#4 && t.apu.ch3.period == 2) = true := by
  decide

/-- N9's second expiry: width 1, from 0x3FBF to 0x1F9F. -/
theorem test_step_noise :
    nextIs (exec .step (withCh4 fun c => { c with period := 1, widthMode := true, lfsr := 0x3FBF#15 }))
      (fun t => t.apu.ch4.lfsr == 0x1F9F#15 && t.apu.ch4.period == 8) = true := by
  decide

/-! ## The assembler: 30_encoding R94 -/

/-- A decimal immediate out of range, a register label that does not exist, and a comment line. -/
theorem test_assemble :
    assembleText "WRITE NR11, 256".toList = none ∧ assembleText "READ NR20".toList = none
      ∧ assembleText "READ WAVE16".toList = none ∧ assembleText "; nothing".toList = some [] := by
  decide

/-! ## Witnesses: states and operands that meet the hypotheses of each statement, at the ends of its clauses -/

/-- The gate is open with the power on, and under `store_only` with the power off. The writes of NR10-NR51, READs of
every register, SAMPLE and the unused addresses have no other hypothesis on the state. -/
theorem witness_Running_and_AcceptsWrites :
    (s1.Running ∧ s1.AcceptsWrites ∧ s1.params.readMask = Params.default.readMask ∧ Memory.wf s1.apu.ch3.waveRam = true)
      ∧ ((State.resetWith storing).Running ∧ (State.resetWith storing).AcceptsWrites) := by
  decide

theorem witness_DecodeInvertsEncode :
    Instr.WellFormed (.writeNr10 0xFF#8) ∧ Instr.WellFormed (.writeOutOfWindow 0xFF0F#16 0xFF#8)
      ∧ Instr.WellFormed (.readOutOfWindow 0xFF40#16) := by
  decide

theorem witness_EncodeInvertsDecode : decode 0x40FF3FAB#32 = .ok (.writeWave 15#4 0xAB#8) := rfl

theorem witness_VerdictsPartitionTheWords :
    verdict 0x00FF1000#32 = .valid .readNr10 ∧ verdict 0x00FF3F00#32 = .valid (.readWave 15#4)
      ∧ verdict 0x00FF0F00#32 = .outOfWindow (.readOutOfWindow 0xFF0F#16)
      ∧ verdict 0x40FF4000#32 = .outOfWindow (.writeOutOfWindow 0xFF40#16 0#8)
      ∧ verdict 0x3FFF1000#32 = .invalid .reservedNonzero ∧ verdict 0x00FF1080#32 = .invalid .readWithData
      ∧ verdict 0x80000100#32 = .invalid .stepWithOperand ∧ verdict 0xC0000001#32 = .invalid .sampleWithOperand :=
  ⟨rfl, rfl, rfl, rfl, rfl, rfl, rfl, rfl⟩

theorem witness_AssemblerSpellsTheOperations :
    Instr.WellFormed (.readOutOfWindow 0xFF0F#16) ∧ 255 < 256 ∧ 255 ≤ 255
      ∧ assembleLine (.write 0xFF11#16 255) = some [0x40FF11FF#32]
      ∧ assembleLine (.step 1) = some [0x80000000#32] := by
  decide

theorem witness_StepRunsTheDecodedOperation :
    ∃ (s : State) (w : Word) (i : Instr), s.Running ∧ s.host.program[s.host.position]? = some w ∧ decode w = .ok i :=
  ⟨issuing [0x40FF12F0#32] s1, 0x40FF12F0#32, .writeNr12 0xF0#8, by decide, rfl, rfl⟩

theorem witness_InvalidWordIsRefused :
    ∃ (s : State) (w : Word) (e : DecodeError), s.Running ∧ s.host.program[s.host.position]? = some w ∧ verdict w = .invalid e :=
  ⟨issuing [0x01FF1200#32] s1, 0x01FF1200#32, .reservedNonzero, by decide, rfl, rfl⟩

theorem witness_MarkedStateHasNoStep :
    (marked s1).apu.fault = some (.busRange 0xFF40#16)
      ∧ (refusedMark s1).apu.fault = none ∧ (refusedMark s1).apu.refusal = some (.reservedOperationBits 0x01FF1200#32) := by
  decide

theorem witness_FirstStepAfterReset :
    ({ Params.default with waveRamInit := Vector.replicate 16 0xA5#8 }).noiseDivisorTable
      = Params.default.noiseDivisorTable := rfl

theorem witness_EveryStepKeepsTheInvariant :
    (∃ t, (issuing [0x80000000#32] State.reset).Inv ∧ step (issuing [0x80000000#32] State.reset) = .next t)
      ∧ ∃ t, State.reset.Inv ∧ step State.reset = .next t :=
  ⟨⟨_, by decide, rfl⟩, _, by decide, rfl⟩

theorem witness_DacOffAlwaysMeansDisabled :
    ∃ s t u, s.DacGates ∧ s.apu.ch1.dacEnabled = false ∧ exec (.writeNr14 0x80#8) s = .next t ∧ step s = .next u :=
  ⟨issuing [0x80000000#32] s1, _, _, by decide, rfl, rfl, rfl⟩

theorem witness_LengthCountersStayInRange :
    (∃ s t, s.LengthsInRange ∧ s.apu.ch3.lengthCounter = 256 ∧ step s = .next t)
      ∧ (bit 0x80#8 7 = true ∧ ∃ t u v w, exec (.writeNr14 0x80#8) s1 = .next t ∧ exec (.writeNr24 0x80#8) s1 = .next u
        ∧ exec (.writeNr34 0x80#8) s1 = .next v ∧ exec (.writeNr44 0x80#8) s1 = .next w)
      ∧ ∃ t u v w, exec (.writeNr11 0x3F#8) s1 = .next t ∧ exec (.writeNr21 0x00#8) s1 = .next u
        ∧ exec (.writeNr31 0xFF#8) s1 = .next v ∧ exec (.writeNr41 0x3F#8) s1 = .next w :=
  ⟨⟨issuing [0x80000000#32] (withCh3 fun c => { c with lengthCounter := 256 }), _, by decide, rfl, rfl⟩,
    ⟨by decide, _, _, _, _, rfl, rfl, rfl, rfl⟩, _, _, _, _, rfl, rfl, rfl, rfl⟩

theorem witness_EnvelopeVolumesStayInRange :
    ∃ s t, s.VolumesInRange ∧ s.apu.ch1.volume = 15 ∧ s.EnvelopeDue ∧ step s = .next t :=
  ⟨issuing [0x80000000#32] (enveloped Params.default ⟨15, 15#4, true, 1#3, 1, false⟩), _, by decide, rfl, by decide, rfl⟩

theorem witness_ParametersAndProgramNeverChange : ∃ t, step (issuing [0x40FF12F0#32] s1) = .next t := ⟨_, rfl⟩

theorem witness_OnlyStepMovesTheFrameSequencer :
    (∃ t, exec (.writeNr14 0x80#8) s1 = .next t ∧ Instr.writeNr14 0x80#8 ≠ .step)
      ∧ (∃ t, exec .step (atTick 0#3 s1) = .next t ∧ t.apu.fs.period = 8192)
      ∧ ∃ t, exec .step s1 = .next t ∧ t.apu.fs.period = 8191 :=
  ⟨⟨_, rfl, by decide⟩, ⟨_, rfl, rfl⟩, _, rfl, rfl⟩

theorem witness_OnlyATriggerEnablesAChannel :
    (∃ s t, exec (.writeNr14 0x80#8) s = .next t ∧ s.apu.ch1.enabled = false ∧ t.apu.ch1.enabled = true)
      ∧ (∃ s t, exec (.writeNr24 0x80#8) s = .next t ∧ s.apu.ch2.enabled = false ∧ t.apu.ch2.enabled = true)
      ∧ (∃ s t, exec (.writeNr34 0x80#8) s = .next t ∧ s.apu.ch3.enabled = false ∧ t.apu.ch3.enabled = true)
      ∧ ∃ s t, exec (.writeNr44 0x80#8) s = .next t ∧ s.apu.ch4.enabled = false ∧ t.apu.ch4.enabled = true :=
  ⟨⟨withCh1 fun c => { c with dacEnabled := true }, _, rfl, rfl, rfl⟩,
    ⟨{ s1 with apu := s1.apu.mapCh2 fun c => { c with dacEnabled := true } }, _, rfl, rfl, rfl⟩,
    ⟨withCh3 fun c => { c with dacEnabled := true }, _, rfl, rfl, rfl⟩,
    ⟨withCh4 fun c => { c with dacEnabled := true }, _, rfl, rfl, rfl⟩⟩

theorem witness_OnlyWriteWaveChangesTheWaveRam :
    (∃ t, exec (.writeWave 0#4 0xAB#8) s1 = .next t ∧ 0xFF31 ≠ waveAddr 0#4 ∧ Memory.read t.apu.ch3.waveRam 0xFF30 = 0xAB#8)
      ∧ ∃ t, exec .step s1 = .next t :=
  ⟨⟨_, rfl, by decide, rfl⟩, _, rfl⟩

theorem witness_SampleBufferChangesOnlyAtTimerExpiry :
    (∃ t, exec (.writeWave 0#4 0xAB#8) s1 = .next t)
      ∧ (∃ s t, exec .step s = .next t ∧ s.apu.ch3.period = 2)
      ∧ ∃ s t, exec .step s = .next t ∧ s.apu.ch3.period = 1 ∧ t.apu.ch3.sampleBuffer ≠ s.apu.ch3.sampleBuffer :=
  ⟨⟨_, rfl⟩, ⟨withCh3 fun c => { c with period := 2 }, _, rfl, rfl⟩,
    withCh3 fun c => { c with period := 1, waveRam := [(0xFF30, 0x0B#8)] }, _, rfl, rfl, by decide⟩

theorem witness_ReadsChangeNoState :
    (Instr.WellFormed .readNr10 ∧ IsRead .readNr10 ∧ Instr.addr? .readNr10 = some 0xFF10#16 ∧ inWindow 0xFF10#16 = true)
      ∧ Instr.WellFormed (.readWave 15#4) ∧ IsRead (.readWave 15#4) ∧ Instr.addr? (.readWave 15#4) = some 0xFF3F#16
        ∧ inWindow 0xFF3F#16 = true := by
  decide

theorem witness_WriteNr10SetsTheSweep : s1.apu.sweep.sweepTime = 0#3 := rfl

/-- Both cases of bit 7, and of a length counter at 0, of the trigger statements of NR14, NR24, NR34 and NR44. -/
theorem witness_triggers :
    bit 0x87#8 7 = true ∧ bit 0x07#8 7 = false ∧ s1.Running ∧ s1.AcceptsWrites ∧ s1.apu.ch1.lengthCounter = 0
      ∧ (withCh1 fun c => { c with lengthCounter := 1 }).apu.ch1.lengthCounter ≠ 0 := by
  decide

theorem witness_LfsrSequencesHaveTheirPeriods :
    (0 < 1 ∧ 1 < 32767) ∧ (0 < 32766 ∧ 32766 < 32767) ∧ 0x7FFF#15 ≠ 0#15 ∧ 0 < 126 ∧ 126 < 127 := by
  decide

/-- PT2, PT3, PT4, and the two ends of the second clause. -/
theorem witness_CountdownExpiresOnItsNthClock :
    countdown 5 9 = (4, false) ∧ countdown 1 9 = (9, true) ∧ countdown 0 9 = (9, true) ∧ 0 < 1 ∧ 3 < 4 := by
  decide

theorem witness_StepCompletesUnlessTheSweepOverflows :
    (s1.Running ∧ ¬ (s1.SweepOverflows ∧ s1.params.sweepOverflow = .fault))
      ∧ (let s := sweeping Params.default 2#3 1025#11 false 0#3 1
        s.Running ∧ s.SweepOverflows ∧ s.params.sweepOverflow = .fault ∧ s.sweepSum = 2050)
      ∧ (let s := sweeping (overflowing .wrap11) 2#3 1025#11 false 0#3 1
        s.Running ∧ s.SweepOverflows ∧ ¬ (s.SweepOverflows ∧ s.params.sweepOverflow = .fault))
      ∧ (let s := sweeping Params.default 2#3 1365#11 false 1#3 0
        s.SweepDue ∧ s.sweepSum = 2047 ∧ ¬ s.SweepOverflows) := by
  decide

theorem witness_StepClocksThePulseTimers :
    (∃ t, exec .step s1 = .next t ∧ s1.apu.ch1.period = 0)
      ∧ (∃ s t, exec .step s = .next t ∧ s.apu.ch1.period = 1 ∧ s.apu.ch1.dutyIdx = 7#3)
      ∧ ∃ s t, exec .step s = .next t ∧ s.apu.ch1.period = 2 :=
  ⟨⟨_, rfl, rfl⟩, ⟨withCh1 fun c => { c with period := 1, dutyIdx := 7#3 }, _, rfl, rfl, rfl⟩,
    withCh1 fun c => { c with period := 2 }, _, rfl, rfl⟩

theorem witness_StepClocksTheWaveTimer :
    (∃ s t, exec .step s = .next t ∧ s.apu.ch3.period = 1 ∧ s.apu.ch3.sampleNibble = 31#5)
      ∧ (∃ t, exec .step s1 = .next t ∧ s1.apu.ch3.period = 0)
      ∧ ∃ s t, exec .step s = .next t ∧ s.apu.ch3.period = 2 :=
  ⟨⟨withCh3 fun c => { c with period := 1, sampleNibble := 31#5 }, _, rfl, rfl, rfl⟩, ⟨_, rfl, rfl⟩,
    withCh3 fun c => { c with period := 2 }, _, rfl, rfl⟩

theorem witness_StepClocksTheNoiseTimer :
    (∃ s t, exec .step s = .next t ∧ s.apu.ch4.period = 1 ∧ s.apu.ch4.widthMode = true)
      ∧ (∃ t, exec .step s1 = .next t ∧ s1.apu.ch4.period = 0)
      ∧ ∃ s t, exec .step s = .next t ∧ s.apu.ch4.period = 2 :=
  ⟨⟨withCh4 fun c => { c with period := 1, widthMode := true }, _, rfl, rfl, rfl⟩, ⟨_, rfl, rfl⟩,
    withCh4 fun c => { c with period := 2 }, _, rfl, rfl⟩

theorem witness_StepAdvancesTheFrameSequencer :
    (∃ t, exec .step (atTick 7#3 s1) = .next t ∧ t.apu.fs.frame = 0#3) ∧ ∃ t, exec .step s1 = .next t :=
  ⟨⟨_, rfl, rfl⟩, _, rfl⟩

theorem witness_StepClocksTheLengthCounters :
    (∃ s t, exec .step s = .next t ∧ s.LengthCounts s.apu.ch1.toChannel ∧ s.apu.ch1.lengthCounter = 1
        ∧ s.apu.ch1.enabled = true)
      ∧ (∃ s t, exec .step s = .next t ∧ s.LengthCounts s.apu.ch3.toChannel ∧ s.apu.ch3.lengthCounter = 256)
      ∧ ∃ s t, exec .step s = .next t ∧ s.SweepOverflows ∧ s.params.sweepOverflow = .disable ∧ s.apu.ch1.enabled = true :=
  ⟨⟨atTick 0#3 (withCh1 fun c => { c with toChannel := sounding true 1 100 }), _, rfl, by decide, rfl, rfl⟩,
    ⟨atTick 6#3 (withCh3 fun c => { c with toChannel := sounding true 256 100 }), _, rfl, by decide, rfl⟩,
    sweeping (overflowing .disable) 6#3 1536#11 false 1#3 1, _, rfl, by decide, rfl, rfl⟩

theorem witness_StepClocksTheSweep :
    (∃ s t, exec .step s = .next t ∧ s.SweepDue ∧ s.sweepSum = 2047)
      ∧ (∃ s t, exec .step s = .next t ∧ s.SweepDue ∧ 2047 < s.sweepSum ∧ s.params.sweepOverflow = .wrap11)
      ∧ (∃ s t, exec .step s = .next t ∧ s.SweepDue ∧ 2047 < s.sweepSum ∧ s.params.sweepOverflow = .disable)
      ∧ (∃ s t, exec .step s = .next t ∧ s.SweepCounts ∧ s.apu.sweep.sweepCounter = 2)
      ∧ ∃ s t, exec .step s = .next t ∧ s.TickDue ∧ ¬ s.SweepCounts :=
  ⟨⟨sweeping Params.default 2#3 1365#11 false 1#3 1, _, rfl, by decide, by decide⟩,
    ⟨sweeping (overflowing .wrap11) 6#3 1536#11 false 1#3 0, _, rfl, by decide, by decide, rfl⟩,
    ⟨sweeping (overflowing .disable) 6#3 1536#11 false 1#3 1, _, rfl, by decide, by decide, rfl⟩,
    ⟨sweeping Params.default 2#3 1365#11 false 1#3 2, _, rfl, by decide, rfl⟩,
    sweeping Params.default 4#3 1365#11 false 1#3 1, _, rfl, by decide, by decide⟩

theorem witness_StepClocksTheEnvelopes :
    (∃ t, exec .step (enveloped Params.default ⟨15, 0#4, false, 0#3, 0, false⟩) = .next t)
      ∧ (∃ t, exec .step (enveloped Params.default ⟨15, 0#4, false, 2#3, 2, false⟩) = .next t)
      ∧ (∃ t, exec .step (enveloped Params.default ⟨14, 0#4, true, 7#3, 1, false⟩) = .next t ∧ t.apu.ch1.volume = 15)
      ∧ (∃ t, exec .step (enveloped Params.default ⟨15, 0#4, true, 1#3, 0, false⟩) = .next t ∧ t.apu.ch1.envFrozen = true)
      ∧ (∃ t, exec .step (enveloped Params.default ⟨0, 0#4, false, 1#3, 1, false⟩) = .next t ∧ t.apu.ch1.envFrozen = true)
      ∧ (∃ t, exec .step (enveloped Params.default ⟨3, 0#4, true, 1#3, 1, true⟩) = .next t ∧ t.apu.ch1.volume = 3)
      ∧ (∃ t, exec .step (enveloped unlatched ⟨15, 0#4, true, 1#3, 1, false⟩) = .next t ∧ t.apu.ch1.envFrozen = false)
      ∧ (enveloped Params.default ⟨15, 0#4, false, 2#3, 2, false⟩).EnvelopeDue ∧ ¬ s1.EnvelopeDue :=
  ⟨⟨_, rfl⟩, ⟨_, rfl⟩, ⟨_, rfl, rfl⟩, ⟨_, rfl, rfl⟩, ⟨_, rfl, rfl⟩, ⟨_, rfl, rfl⟩, ⟨_, rfl, rfl⟩, by decide, by decide⟩

theorem witness_StepLeavesEverythingElse : ∃ t, exec .step (atTick 2#3 s1) = .next t := ⟨_, rfl⟩

theorem witness_TicksFallOnEvery8192ndStep : 8191 + 1 = 8192 * 1 ∧ 65535 + 1 = 8192 * 8 ∧ ¬ 8192 ∣ 8192 + 1 := by
  decide

theorem witness_WriteNr52StoresThePowerBit :
    (s1.Running ∧ bit 0x80#8 7 = true) ∧ (s1.params.powerOff = .refuse ∧ bit 0x7F#8 7 = false)
      ∧ (State.resetWith storing).params.powerOff = .storeOnly := by
  decide

/-- 44_mixer R261: with the gate shut the two unused addresses it does not cover are still written. -/
theorem witness_UnusedWritesChangeNothing : State.reset.Running ∧ ¬ State.reset.AcceptsWrites ∧ s1.AcceptsWrites := by
  decide

/-- Program P6 after its WRITEs: four channels on, every digital value 0, full volume, everything routed. -/
theorem witness_SampleStaysWithinFour :
    let on : Channel := sounding false 64 8
    let every : Routing := ⟨true, true, true, true⟩
    let s : State :=
      { s1 with apu := { s1.apu with
          ch1 := { s1.apu.ch1 with toChannel := on, duty := 3#2, volume := 15 }
          ch2 := { s1.apu.ch2 with toChannel := on, duty := 3#2, volume := 15 }
          ch3 := { s1.apu.ch3 with toChannel := on }
          ch4 := { s1.apu.ch4 with toChannel := on, lfsr := 0x7FFF#15, volume := 15 }
          mix := ⟨7#3, 7#3, every, every, false, false⟩ } }
    s.Inv ∧ s.Running ∧ (∃ t, exec .sample s = .next t)
      ∧ s.apu.ch1.digital s.params = 0 ∧ s.apu.ch2.digital s.params = 0 ∧ s.apu.ch3.digital s.params = 0
      ∧ s.apu.ch4.digital = 0 ∧ s.apu.ch1.enabled = true ∧ s.apu.ch4.enabled = true
      ∧ s1.apu.mix.routeLeft = ⟨false, false, false, false⟩ :=
  ⟨by decide, by decide, ⟨_, rfl⟩, by decide, by decide, by decide, by decide, rfl, rfl, rfl⟩

/-- The two ends of the window, whose masks are elements 0 and 47. -/
theorem witness_MaskBitsReadOne :
    (IsRead .readNr10 ∧ Instr.addr? .readNr10 = some 0xFF10#16 ∧ (0xFF10#16).toNat = 0xFF10 + 0)
      ∧ IsRead (.readWave 15#4) ∧ Instr.addr? (.readWave 15#4) = some 0xFF3F#16 ∧ (0xFF3F#16).toNat = 0xFF10 + 47 := by
  decide

/-- The hypotheses of the NR52 clause, by a power-on write under `refuse` and by a power-off write under `store_only`; and
W1's NR30 after its two WRITEs, with the channel stopped. -/
theorem witness_ReadAfterWriteReturnsTheFields :
    (s1.params.powerOff = .refuse ∧ bit 0x8F#8 7 = true)
      ∧ ((poweredOn storing).AcceptsWrites ∧ (poweredOn storing).params.powerOff = .storeOnly ∧ bit 0x00#8 7 = false)
      ∧ (poweredOn storing).params.readMask = Params.default.readMask
      ∧ nextIs (exec (.writeNr30 0x80#8) s1) (fun t => reads .readNr30 t 0x7F#8) = true
      ∧ nextIs (exec (.writeNr52 0x8F#8) s1) (fun t => reads .readNr52 t 0xF0#8) = true := by
  decide

theorem witness_NonTriggerWritesAreIdempotent :
    ∃ t u, IsWrite (.writeNr14 0x7F#8) ∧ triggersChannel (.writeNr14 0x7F#8) = false
      ∧ exec (.writeNr14 0x7F#8) s1 = .next t ∧ IsWrite (.writeWave 3#4 0#8) ∧ triggersChannel (.writeWave 3#4 0#8) = false
      ∧ Memory.wf s1.apu.ch3.waveRam = true ∧ exec (.writeWave 3#4 0#8) s1 = .next u :=
  ⟨_, _, by decide, rfl, rfl, by decide, rfl, rfl, rfl⟩

/-- The ends of the gated range: 0xFF10 and 0xFF25 refused at power 0, 0xFF30 not; and NR52 with bit 7 clear. -/
theorem witness_PowerGateRefusesExactlyTheseWrites :
    refusalIs (exec (.writeNr10 0#8) State.reset) (.powerOffUnmodelled 0x40FF1000#32)
      && refusalIs (exec (.writeNr51 0xFF#8) State.reset) (.powerOffUnmodelled 0x40FF25FF#32)
      && refusalIs (exec (.writeNr52 0x7F#8) State.reset) (.powerOffUnmodelled 0x40FF267F#32)
      && nextIs (exec (.writeWave 0#4 0#8) State.reset) (fun _ => true) = true := by
  decide

theorem witness_OutOfWindowFaultsOrIsIgnored :
    (s1.Running ∧ s1.params.busRange = .fault) ∧ (poweredOn ignoring).Running ∧ (poweredOn ignoring).params.busRange = .ignore := by
  decide

theorem witness_EveryStopHasItsCause :
    s1.Running ∧ (sweeping Params.default 2#3 1025#11 false 0#3 1).Running
      ∧ faultIs (exec .step (sweeping Params.default 2#3 1025#11 false 0#3 1)) (.sweepOverflow 2050) = true
      ∧ faultIs (exec (.readOutOfWindow 0xFF40#16) s1) (.busRange 0xFF40#16) = true
      ∧ refusalIs (exec (.writeNr12 0#8) State.reset) (.powerOffUnmodelled 0x40FF1200#32) = true := by
  decide

end Sys2Proof.Machine.Tests
end

/-! The output of the mixer in the spec's own arithmetic (44_mixer_control R255-R258), and the pair SAMPLE hands over (R259). -/

namespace Sys2Proof.Machine

/-! ## The channels' digital outputs -/

/-- `PulseDigital(c)`: the volume where the duty pattern is high, and 0 elsewhere (40_pulse R135). -/
theorem Pulse.digital_eq (p : Params) (c : Pulse) :
    c.digital p
      = if (p.dutyTable[c.duty.toNat]'c.duty.isLt)[c.dutyIdx.toNat]'c.dutyIdx.isLt then c.volume else 0 := by
  unfold Pulse.digital
  dsimp only
  split
  · exact Nat.one_mul _
  · exact Nat.zero_mul _

/-- `WaveDigital()`: the shift of the sample buffer is a division by a power of two (41_wave R185). -/
theorem Wave.digital_eq (p : Params) (c : Wave) :
    c.digital p = c.sampleBuffer.toNat / 2 ^ (p.waveShiftTable[c.volumeCode.toNat]'c.volumeCode.isLt) :=
  Nat.shiftRight_eq_div_pow _ _

/-- `NoiseDigital()`: the volume where bit 0 of the LFSR is clear, and 0 elsewhere (42_noise R214). -/
theorem Noise.digital_eq (c : Noise) : c.digital = if c.lfsr.toNat % 2 = 1 then 0 else c.volume := by
  have hbit : (c.lfsr.extractLsb' 0 1).toNat = c.lfsr.toNat % 2 := by simp [BitVec.extractLsb'_toNat]
  rw [Noise.digital, hbit]
  split
  · next h => rw [h]; exact Nat.zero_mul _
  · next h => rw [Nat.mod_two_ne_one.1 h]; exact Nat.one_mul _

/-! ## The mix -/

/-- `DacMap(v)` as the centred fraction `v / 7.5 - 1` (00_scope R14). -/
theorem dacMap_eq (v : Nat) : dacMap v = (v : Rat) / (15 / 2) - 1 := by
  unfold dacMap
  ring

/-- `ChannelOut(c)` over the centred fraction (R255). -/
theorem channelOut_eq (enabled : Bool) (v : Nat) :
    channelOut enabled v = if enabled then (v : Rat) / (15 / 2) - 1 else 0 := by
  rw [channelOut, dacMap_eq]

/-- The master scale as a factor of the side sum (R258). -/
theorem masterScale_eq (sum : Rat) (code : BitVec 3) :
    masterScale sum code = sum * (((code.toNat : Rat) + 1) / 8) :=
  mul_div_assoc _ _ _

/-! ## SAMPLE -/

/-- SAMPLE completes in every running state and hands the host the two outputs; nothing else changes (R259). -/
theorem exec_sample {s : State} (h : s.Running) :
    exec .sample s = .next (deliver (.pair (s.apu.outLeft s.params) (s.apu.outRight s.params)) s) :=
  (perform_running h).trans (settle_running h)

/-- Settles O53: the two outputs are rewritten, channel by channel, into the spec's arithmetic. -/
theorem sampleGivesTheMixedPair : Obligations.SampleGivesTheMixedPair := by
  intro s hs
  refine ⟨?_, by decide⟩
  rw [exec_sample hs]
  simp only [deliver, Apu.outLeft, Apu.outRight, Apu.sideSum, masterScale_eq, routed, channelOut_eq,
    Pulse.digital_eq, Wave.digital_eq, Noise.digital_eq]

end Sys2Proof.Machine

/-! O14: a channel with its DAC off is never enabled (10_state R32). Only a DAC write, a trigger, the length clock and the
sweep's `disable` policy write a channel's two flags; each keeps the gate, so every operation and every step does. -/

namespace Sys2Proof.Machine

/-! ## One channel's gate -/

/-- The gate holds where the DAC flag is unchanged and the channel is not newly enabled. -/
theorem Channel.DacGates.mono {c d : Channel} (h : c.DacGates) (hd : d.dacEnabled = c.dacEnabled)
    (he : d.enabled = true → c.enabled = true) : d.DacGates :=
  fun hoff => Bool.eq_false_iff.2 fun hon => Bool.eq_false_iff.1 (h (hd ▸ hoff)) (he hon)

/-- A DAC write establishes the gate (40_pulse R128, 41_wave R170). -/
theorem Channel.writeDac_dacGates (dac : Bool) (c : Channel) : (c.writeDac dac).DacGates := by
  cases dac
  · exact fun _ => rfl
  · exact fun hoff => nomatch hoff

/-- A trigger establishes the gate: the flag takes the DAC's state (40_pulse R131). -/
theorem Channel.trigger_dacGates (lenMax reload : Nat) (c : Channel) : (c.trigger lenMax reload).DacGates :=
  fun hoff => hoff

/-- A length clock, where it is due, keeps the gate (40_pulse R132). -/
theorem Channel.DacGates.lengthTick {c : Channel} (h : c.DacGates) (due : Prop) [Decidable due] :
    (if due then c.clockLength else c).DacGates := by
  obtain ⟨-, henabled, hdac, -, -⟩ := clockLength_leaves c
  split
  · exact h.mono hdac henabled
  · exact h

/-! ## The writes of NRx4: a trigger, or the flags stay -/

/-- The write of NR14 or NR24 keeps the gate (40_pulse R137). -/
theorem Pulse.writeFrequencyHigh_dacGates (p : Params) (d : Byte) {c : Pulse} (h : c.toChannel.DacGates) :
    (c.writeFrequencyHigh p d).toChannel.DacGates := by
  unfold Pulse.writeFrequencyHigh
  dsimp only
  split
  · exact Channel.trigger_dacGates _ _ _
  · exact h

/-- The write of NR34 keeps the gate (40_pulse R137). -/
theorem Wave.writeFrequencyHigh_dacGates (d : Byte) {c : Wave} (h : c.toChannel.DacGates) :
    (c.writeFrequencyHigh d).toChannel.DacGates := by
  unfold Wave.writeFrequencyHigh
  dsimp only
  split
  · exact Channel.trigger_dacGates _ _ _
  · exact h

/-- The write of NR44 keeps the gate (42_noise R203). -/
theorem Noise.writeControl_dacGates (p : Params) (d : Byte) {c : Noise} (h : c.toChannel.DacGates) :
    (c.writeControl p d).toChannel.DacGates := by
  unfold Noise.writeControl
  dsimp only
  split
  · exact Channel.trigger_dacGates _ _ _
  · exact h

/-! ## The block's gate -/

/-- 10_state R32 for the four channels of a block. -/
abbrev Apu.DacGates (a : Apu) : Prop :=
  a.ch1.toChannel.DacGates ∧ a.ch2.toChannel.DacGates ∧ a.ch3.toChannel.DacGates ∧ a.ch4.toChannel.DacGates

/-- A state's gate is its block's. -/
theorem State.dacGates_iff (s : State) : s.DacGates ↔ s.apu.DacGates := Iff.rfl

/-- The gate holds at reset, where no channel is enabled (R22). -/
theorem Apu.reset_dacGates (p : Params) : (Apu.reset p).DacGates :=
  ⟨fun _ => rfl, fun _ => rfl, fun _ => rfl, fun _ => rfl⟩

/-- The four frequency timers keep the gate: they write neither flag. -/
theorem Apu.DacGates.clockTimers {a : Apu} (h : a.DacGates) (p : Params) : (a.clockTimers p).DacGates := by
  obtain ⟨h1, h2, h3, h4⟩ := h
  obtain ⟨-, henabled, hdac, -⟩ := wave_clockTimer_leaves a.ch3
  exact ⟨h1, h2, h3.mono hdac fun hon => henabled ▸ hon, h4⟩

/-- A clock cycle keeps the gate: after the timers, a length tick and the sweep can only clear a flag (R232, R233). -/
theorem Apu.DacGates.cycle {a : Apu} (h : a.DacGates) (p : Params) : (a.cycle p).DacGates := by
  obtain ⟨h1, h2, h3, h4⟩ := h.clockTimers p
  obtain ⟨hc1, hc2, hc3, hc4⟩ := cycle_channels p a
  refine ⟨?_, ?_, ?_, ?_⟩
  · rcases hc1 with hc1 | hc1
    · rw [hc1]; exact h1.lengthTick _
    · rw [hc1]; exact fun _ => rfl
  · rw [hc2]; exact h2.lengthTick _
  · rw [hc3]; exact h3.lengthTick _
  · rw [hc4]; exact h4.lengthTick _

/-- Every operation's effect on the block keeps the gate: four write a DAC flag, four can trigger, STEP clocks, and the
rest write no flag. -/
theorem Apu.DacGates.blockEffect {a : Apu} (h : a.DacGates) (p : Params) (i : Instr) :
    (blockEffect p i a).DacGates := by
  obtain ⟨h1, h2, h3, h4⟩ := h
  cases i
  case writeNr12 d => exact ⟨Channel.writeDac_dacGates _ _, h2, h3, h4⟩
  case writeNr22 d => exact ⟨h1, Channel.writeDac_dacGates _ _, h3, h4⟩
  case writeNr30 d => exact ⟨h1, h2, Channel.writeDac_dacGates _ _, h4⟩
  case writeNr42 d => exact ⟨h1, h2, h3, Channel.writeDac_dacGates _ _⟩
  case writeNr14 d => exact ⟨Pulse.writeFrequencyHigh_dacGates p d h1, h2, h3, h4⟩
  case writeNr24 d => exact ⟨h1, Pulse.writeFrequencyHigh_dacGates p d h2, h3, h4⟩
  case writeNr34 d => exact ⟨h1, h2, Wave.writeFrequencyHigh_dacGates d h3, h4⟩
  case writeNr44 d => exact ⟨h1, h2, h3, Noise.writeControl_dacGates p d h4⟩
  case step => exact Apu.DacGates.cycle ⟨h1, h2, h3, h4⟩ p
  all_goals exact ⟨h1, h2, h3, h4⟩

/-! ## The machine's gate -/

/-- An operation that gives a next state keeps the gate. -/
theorem exec_keeps_dacGates {i : Instr} {s t : State} (h : s.DacGates) (he : exec i s = .next t) : t.DacGates := by
  rw [State.dacGates_iff, exec_apu he]
  exact Apu.DacGates.blockEffect h s.params i

/-- A step that gives a next state keeps the gate: it changed nothing, or executed one operation. -/
theorem step_keeps_dacGates {s t : State} (h : s.DacGates) (hs : step s = .next t) : t.DacGates := by
  rcases step_next_cases hs with ⟨rfl, -⟩ | ⟨w, i, u, -, -, he, rfl⟩
  · exact h
  · rw [State.dacGates_iff, advance_apu]
    exact exec_keeps_dacGates h he

/-- Settles O14: the gate holds at reset, and every operation's effect on the block keeps it. -/
theorem dacOffAlwaysMeansDisabled : Obligations.DacOffAlwaysMeansDisabled :=
  ⟨fun p => Apu.reset_dacGates p, fun _ _ _ h he => exec_keeps_dacGates h he,
    fun _ _ h hs => step_keeps_dacGates h hs⟩

end Sys2Proof.Machine

/-! The registers of the pulse channels (40_pulse): what a WRITE of NR11 and NR21 loads, and what each READ hands over with
the default masks. -/

namespace Sys2Proof.Machine

/-! ## The word of a WRITE -/

/-- A WRITE word as a number: the operation bits, the address, the data byte (30_encoding R80). -/
theorem writeWord_toNat (a : Addr) (d : Byte) :
    (mkWord 0b01#2 0#6 a d).toNat = 0x40000000 + 256 * a.toNat + d.toNat := by
  rw [mkWord_toNat, BitVec.toNat_ofNat, BitVec.toNat_ofNat]
  omega

/-! ## Duty and length: NR11 and NR21 -/

/-- The duty and the length load of a data byte, in the spec's notation (R111). -/
theorem Pulse.writeDutyLength_eq (d : Byte) (c : Pulse) :
    c.writeDutyLength d = { c with duty := BitVec.ofNat 2 (bits d 7 6), lengthCounter := 64 - bits d 5 0 } := by
  rw [Pulse.writeDutyLength, dutyField_eq, lengthLoad64_eq]

/-- An accepted WRITE NR11 completes, and its effect is channel 1's load alone. -/
theorem exec_writeNr11 {s : State} (hr : s.Running) (ha : s.AcceptsWrites) (d : Byte) :
    exec (.writeNr11 d) s = .next (s.onApu fun _ => Apu.mapCh1 (Pulse.writeDutyLength d)) :=
  perform_writeByte hr ha hr

/-- An accepted WRITE NR21 completes, and its effect is channel 2's load alone. -/
theorem exec_writeNr21 {s : State} (hr : s.Running) (ha : s.AcceptsWrites) (d : Byte) :
    exec (.writeNr21 d) s = .next (s.onApu fun _ => Apu.mapCh2 (Pulse.writeDutyLength d)) :=
  perform_writeByte hr ha hr

/-- Settles O24: each write's effect is the load of its channel, rewritten into the spec's fields. -/
theorem writeNr11AndNr21LoadDutyAndLength : Obligations.WriteNr11AndNr21LoadDutyAndLength := by
  intro d s hr ha
  refine ⟨?_, ?_, writeWord_toNat _ d, writeWord_toNat _ d⟩
  · rw [exec_writeNr11 hr ha, ← Pulse.writeDutyLength_eq]
    rfl
  · rw [exec_writeNr21 hr ha, ← Pulse.writeDutyLength_eq]
    rfl

/-! ## The natural values under their default masks (30_encoding R92) -/

/-- NR10: bit 7 reads 1 (R119). -/
theorem naturalSweep_or_mask (w : Sweep) :
    naturalSweep w ||| 0x80#8
      = BitVec.ofNat 8 (0x80 + 16 * w.sweepTime.toNat + 8 * w.sweepDirection.toNat + w.sweepShifts.toNat) := by
  have hd : naturalSweep w &&& 0x80#8 = 0#8 := by
    change naturalSweep w &&& (1#1 ++ 0#3 ++ 0#1 ++ 0#3) = 0#8
    rw [naturalSweep, BitVec.and_append, BitVec.and_append, BitVec.and_append, BitVec.zero_and, BitVec.and_zero,
      BitVec.and_zero, BitVec.and_zero]
    rfl
  rw [or_eq_ofNat_add (naturalSweep_toNat w) (k := 0x80) rfl hd, ← Nat.add_assoc, ← Nat.add_assoc]

/-- NR11 and NR21: the six length bits read 1 (R120, R124). -/
theorem naturalDuty_or_mask (c : Pulse) : naturalDuty c ||| 0x3F#8 = BitVec.ofNat 8 (64 * c.duty.toNat + 0x3F) := by
  have hd : naturalDuty c &&& 0x3F#8 = 0#8 := by
    change naturalDuty c &&& (0#2 ++ 0x3F#6) = 0#8
    rw [naturalDuty, BitVec.and_append, BitVec.and_zero, BitVec.zero_and]
    rfl
  rw [or_eq_ofNat_add (naturalDuty_toNat c) (k := 0x3F) rfl hd, Nat.add_comm]

/-- NR12, NR22 and NR42: every bit is a field's (R121, R125, 42_noise R206). -/
theorem naturalEnvelope_or_mask (e : Envelope) :
    naturalEnvelope e ||| 0x00#8
      = BitVec.ofNat 8 (16 * e.volumeInit.toNat + 8 * e.envDirection.toNat + e.volumePeriod.toNat) := by
  rw [BitVec.or_zero, ← naturalEnvelope_toNat, BitVec.ofNat_toNat, BitVec.setWidth_eq]

/-- NR14, NR24, NR34 and NR44: all but the length enable read 1 (R123, R127, 41_wave R180, 42_noise R208). -/
theorem naturalControl_or_mask (c : Channel) :
    naturalControl c ||| 0xBF#8 = BitVec.ofNat 8 (0xBF + 64 * c.lengthEnabled.toNat) := by
  have hd : naturalControl c &&& 0xBF#8 = 0#8 := by
    rw [naturalControl]
    cases c.lengthEnabled <;> rfl
  exact or_eq_ofNat_add (naturalControl_toNat c) rfl hd

/-! ## READs with the default masks -/

/-- A READ completes and hands over `n ||| m`, its natural value under the default mask of its address, where the
parameters' masks are the defaults (30_encoding R81, R92). -/
theorem answers_of_defaultMask {i : Instr} {s : State} {a : Addr} {n m b : Byte} (hr : s.Running)
    (hp : s.params.readMask = Params.default.readMask) (hi : readReply s i = some (n ||| readMaskAt s.params a))
    (hm : readMaskAt Params.default a = m) (hb : n ||| m = b) : Answers i s b := by
  have hmask : readMaskAt s.params a = m := by rw [← hm, readMaskAt, hp, readMaskAt]
  rw [hmask, hb] at hi
  exact ⟨_, exec_read hr hi, rfl⟩

/-- Settles O28: each READ's reply is its natural value under the default mask of its address. -/
theorem pulseRegisterReads : Obligations.PulseRegisterReads := by
  intro s hr hp
  refine ⟨?_, ?_, ?_, ?_, ?_, ?_, ?_, ?_, ?_, rfl⟩
  · exact answers_of_defaultMask hr hp rfl (by decide) (naturalSweep_or_mask _)
  · exact answers_of_defaultMask hr hp rfl (by decide) (naturalDuty_or_mask _)
  · exact answers_of_defaultMask hr hp rfl (by decide) (naturalEnvelope_or_mask _)
  · exact answers_of_defaultMask hr hp rfl (by decide) BitVec.zero_or
  · exact answers_of_defaultMask hr hp rfl (by decide) (naturalControl_or_mask _)
  · exact answers_of_defaultMask hr hp rfl (by decide) (naturalDuty_or_mask _)
  · exact answers_of_defaultMask hr hp rfl (by decide) (naturalEnvelope_or_mask _)
  · exact answers_of_defaultMask hr hp rfl (by decide) BitVec.zero_or
  · exact answers_of_defaultMask hr hp rfl (by decide) (naturalControl_or_mask _)

end Sys2Proof.Machine

/-! The registers and the timer of the wave channel (41_wave), and the length of the noise channel (42_noise R200): what
the WRITEs of NR30, NR31, NR32 and NR41 set, what each READ hands over with the default masks, and what a STEP does to
the timer. -/

namespace Sys2Proof.Machine

/-! ## DAC power, length and volume code: NR30, NR31, NR32 and NR41 -/

/-- The flags a DAC write leaves, as one conjunction: the flag survives only where the DAC is on (R170). -/
theorem Channel.writeDac_eq (dac : Bool) (c : Channel) :
    c.writeDac dac = { c with dacEnabled := dac, enabled := dac && c.enabled } := by
  cases dac <;> rfl

/-- An accepted WRITE NR30 completes, and its effect is channel 3's DAC write alone. -/
theorem exec_writeNr30 {s : State} (hr : s.Running) (ha : s.AcceptsWrites) (d : Byte) :
    exec (.writeNr30 d) s
      = .next (s.onApu fun _ => Apu.mapCh3 fun c => { c with toChannel := c.toChannel.writeDac (waveDacField d) }) :=
  perform_writeByte hr ha hr

/-- An accepted WRITE NR31 completes, and its effect is channel 3's length load alone. -/
theorem exec_writeNr31 {s : State} (hr : s.Running) (ha : s.AcceptsWrites) (d : Byte) :
    exec (.writeNr31 d) s = .next (s.onApu fun _ => Apu.mapCh3 fun c => { c with lengthCounter := lengthLoad256 d }) :=
  perform_writeByte hr ha hr

/-- An accepted WRITE NR32 completes, and its effect is channel 3's volume code alone. -/
theorem exec_writeNr32 {s : State} (hr : s.Running) (ha : s.AcceptsWrites) (d : Byte) :
    exec (.writeNr32 d) s = .next (s.onApu fun _ => Apu.mapCh3 fun c => { c with volumeCode := volumeCodeField d }) :=
  perform_writeByte hr ha hr

/-- An accepted WRITE NR41 completes, and its effect is channel 4's length load alone. -/
theorem exec_writeNr41 {s : State} (hr : s.Running) (ha : s.AcceptsWrites) (d : Byte) :
    exec (.writeNr41 d) s = .next (s.onApu fun _ => Apu.mapCh4 fun c => { c with lengthCounter := lengthLoad64 d }) :=
  perform_writeByte hr ha hr

/-- Settles O29: each write's effect is the update of its channel, rewritten into the spec's fields. -/
theorem writeNr30Nr31Nr32Nr41SetTheirFields : Obligations.WriteNr30Nr31Nr32Nr41SetTheirFields := by
  intro d s hr ha
  refine ⟨?_, ?_, ?_, ?_, writeWord_toNat _ d, writeWord_toNat _ d, writeWord_toNat _ d, writeWord_toNat _ d⟩
  · rw [exec_writeNr30 hr ha, waveDacField_eq]
    simp only [Channel.writeDac_eq]
    rfl
  · exact exec_writeNr31 hr ha d
  · rw [exec_writeNr32 hr ha, volumeCodeField_eq]
    rfl
  · rw [exec_writeNr41 hr ha, lengthLoad64_eq]
    rfl

/-! ## READs with the default masks -/

/-- NR30: all but `enabled` read 1 (R176). -/
theorem naturalWavePower_or_mask (c : Wave) :
    naturalWavePower c ||| 0x7F#8 = BitVec.ofNat 8 (0x7F + 128 * c.enabled.toNat) := by
  have hd : naturalWavePower c &&& 0x7F#8 = 0#8 := by
    rw [naturalWavePower]
    cases c.enabled <;> rfl
  exact or_eq_ofNat_add (naturalWavePower_toNat c) rfl hd

/-- NR32: all but the two bits of the volume code read 1 (R178). -/
theorem naturalWaveVolume_or_mask (c : Wave) :
    naturalWaveVolume c ||| 0x9F#8 = BitVec.ofNat 8 (0x9F + 32 * c.volumeCode.toNat) := by
  have hd : naturalWaveVolume c &&& 0x9F#8 = 0#8 := by
    change naturalWaveVolume c &&& (1#1 ++ 0#2 ++ 0x1F#5) = 0#8
    rw [naturalWaveVolume, BitVec.and_append, BitVec.and_append, BitVec.and_zero, BitVec.zero_and, BitVec.zero_and]
    rfl
  exact or_eq_ofNat_add (naturalWaveVolume_toNat c) rfl hd

/-- Settles O32: each READ's reply is its natural value under the default mask of its address. -/
theorem waveRegisterReads : Obligations.WaveRegisterReads := by
  intro s hr hp
  refine ⟨?_, ?_, ?_, ?_, ?_, rfl⟩
  · exact answers_of_defaultMask hr hp rfl (by decide) (naturalWavePower_or_mask _)
  · exact answers_of_defaultMask hr hp rfl (by decide) BitVec.zero_or
  · exact answers_of_defaultMask hr hp rfl (by decide) (naturalWaveVolume_or_mask _)
  · exact answers_of_defaultMask hr hp rfl (by decide) BitVec.zero_or
  · exact answers_of_defaultMask hr hp rfl (by decide) (naturalControl_or_mask _)

/-! ## The timer of channel 3 in a STEP -/

/-- A completed STEP leaves the timer, the sample pointer and the sample buffer of channel 3 as its timer's clock leaves
them: no tick of the frame sequencer writes the three (R183, 43_frame_sequencer R232). -/
theorem exec_step_waveTimer {s t : State} (h : exec .step s = .next t) :
    t.apu.ch3.period = s.apu.ch3.clockTimer.period ∧ t.apu.ch3.sampleNibble = s.apu.ch3.clockTimer.sampleNibble
      ∧ t.apu.ch3.sampleBuffer = s.apu.ch3.clockTimer.sampleBuffer := by
  obtain ⟨-, -, ⟨-, -, hnibble, hbuffer, -, hperiod⟩, -⟩ := cycle_rest s.params s.apu
  rw [exec_apu h]
  exact ⟨hperiod, hnibble, hbuffer⟩

/-- Settles O41: the timer's clock counts above 1, and at 0 or 1 reloads, advances the pointer and fetches there. -/
theorem stepClocksTheWaveTimer : Obligations.StepClocksTheWaveTimer := by
  refine ⟨?_, waveReload_range⟩
  intro s t h c n b
  obtain ⟨hperiod, hnibble, hbuffer⟩ := exec_step_waveTimer h
  constructor
  · intro hcounts
    rw [wave_counts hcounts] at hperiod hnibble hbuffer
    exact ⟨hperiod, hnibble, hbuffer⟩
  · intro hexpires
    rw [wave_expires hexpires] at hperiod hnibble hbuffer
    have hn : (c.sampleNibble + 1#5).toNat = n := BitVec.toNat_add _ _
    refine ⟨hperiod, ?_, ?_⟩
    · rw [hnibble, hn]
    · rw [hbuffer, sample_toNat, hn]

end Sys2Proof.Machine

/-! The noise channel (42_noise): one step of its LFSR in the arithmetic of naturals, what a WRITE of NR44 does, what each
READ of NR41-NR44 hands over with the default masks, and what a STEP does to the timer and the LFSR. -/

namespace Sys2Proof.Machine

/-! ## The LFSR (R209) -/

/-- The feedback bit of R209, in bit 0: the sum of bits 0 and 1 modulo 2. -/
def lfsrFeedback (l : BitVec 15) : BitVec 15 := (l ^^^ (l >>> 1)) &&& 1#15

/-- The wide step shifts right and puts the feedback bit into bit 14. -/
theorem lfsrStep_wide (l : BitVec 15) : lfsrStep l false = (l >>> 1) ||| (lfsrFeedback l <<< 14) := rfl

/-- The narrow tap puts the feedback bit into bit 6 of the wide step's value. -/
theorem lfsrStep_narrow (l : BitVec 15) :
    lfsrStep l true = (lfsrStep l false &&& ~~~0x0040#15) ||| (lfsrFeedback l <<< 6) := rfl

/-- The exclusive or of two bits is their sum modulo 2. -/
theorem lfsrFeedback_toNat (l : BitVec 15) : (lfsrFeedback l).toNat = (l.toNat + l.toNat / 2) % 2 := by
  rw [lfsrFeedback, BitVec.toNat_and, BitVec.toNat_xor, BitVec.toNat_ushiftRight]
  exact (Nat.and_one_is_mod _).trans Nat.xor_mod_two_eq

/-- The feedback bit moved to a place `i` of the register stands for `2 ^ i`. -/
theorem lfsrFeedback_shiftLeft_toNat (l : BitVec 15) {i : Nat} (hi : i < 15) :
    (lfsrFeedback l <<< i).toNat = (lfsrFeedback l).toNat <<< i := by
  have hbit : (lfsrFeedback l).toNat < 2 ^ 1 := lfsrFeedback_toNat l ▸ Nat.mod_lt _ (by decide)
  rw [BitVec.toNat_shiftLeft]
  exact Nat.mod_eq_of_lt ((Nat.shiftLeft_lt hbit).trans_le (Nat.pow_le_pow_right (by decide) (by omega)))

/-- Bit 14 is clear after the shift, so entering the feedback bit there adds its value. -/
theorem lfsrStep_wide_toNat (l : BitVec 15) :
    (lfsrStep l false).toNat = l.toNat / 2 + (l.toNat + l.toNat / 2) % 2 * 2 ^ 14 := by
  have hlow : l.toNat / 2 < 2 ^ 14 := by omega
  rw [lfsrStep_wide, BitVec.toNat_or, lfsrFeedback_shiftLeft_toNat l (by decide), BitVec.toNat_ushiftRight,
    Nat.shiftRight_eq_div_pow, Nat.or_comm, ← Nat.shiftLeft_add_eq_or_of_lt hlow, lfsrFeedback_toNat,
    Nat.shiftLeft_eq, Nat.add_comm]

/-- The bits of `v` inside and outside a mask make up `v`. -/
theorem toNat_and_add_toNat_and_not {w : Nat} (v m : BitVec w) : (v &&& m).toNat + (v &&& ~~~m).toNat = v.toNat := by
  have hdisjoint : (v &&& m) &&& (v &&& ~~~m) = 0#w := by
    ext i hi
    cases hm : m[i] <;> simp [hm]
  have hall : (v &&& m) ||| (v &&& ~~~m) = v := by
    ext i hi
    cases hm : m[i] <;> simp [hm]
  rw [← BitVec.toNat_add_of_and_eq_zero hdisjoint, BitVec.add_eq_or_of_and_eq_zero _ _ hdisjoint, hall]

/-- Clearing bit 6 takes its value away. -/
theorem clearBit6_toNat (v : BitVec 15) :
    (v &&& ~~~0x0040#15).toNat = v.toNat - v.toNat / 2 ^ 6 % 2 * 2 ^ 6 := by
  have hbit : (v &&& 0x0040#15).toNat = v.toNat / 2 ^ 6 % 2 * 2 ^ 6 := by
    rw [← Nat.toNat_testBit]
    exact Nat.and_two_pow v.toNat 6
  have hsplit := toNat_and_add_toNat_and_not v 0x0040#15
  omega

/-- A value added at bit 14 leaves bit 6 as it is. -/
theorem sub_bit6_add_bit14 (y f : Nat) :
    y + f * 2 ^ 14 - (y + f * 2 ^ 14) / 2 ^ 6 % 2 * 2 ^ 6 = y - y / 2 ^ 6 % 2 * 2 ^ 6 + f * 2 ^ 14 := by
  have hquotient : (y + f * 2 ^ 14) / 2 ^ 6 = y / 2 ^ 6 + f * 2 ^ 8 := by omega
  omega

/-- The narrow step replaces bit 6 of the wide step's value, which is bit 6 of the shifted value, by the feedback bit. -/
theorem lfsrStep_narrow_toNat (l : BitVec 15) :
    (lfsrStep l true).toNat
      = l.toNat / 2 - (l.toNat / 2 / 2 ^ 6 % 2) * 2 ^ 6 + (l.toNat + l.toNat / 2) % 2 * 2 ^ 14
        + (l.toNat + l.toNat / 2) % 2 * 2 ^ 6 := by
  have hbit : lfsrFeedback l <<< 6 = 0x0040#15 &&& ((l ^^^ (l >>> 1)) <<< 6) := by
    rw [lfsrFeedback, BitVec.shiftLeft_and_distrib, BitVec.and_comm]
    rfl
  have hdisjoint : (lfsrStep l false &&& ~~~0x0040#15) &&& (lfsrFeedback l <<< 6) = 0#15 := by
    rw [hbit, BitVec.and_assoc, ← BitVec.and_assoc (~~~0x0040#15), BitVec.not_and_self]
    exact (congrArg _ BitVec.zero_and).trans BitVec.and_zero
  rw [lfsrStep_narrow, ← BitVec.add_eq_or_of_and_eq_zero _ _ hdisjoint, BitVec.toNat_add_of_and_eq_zero hdisjoint,
    clearBit6_toNat, lfsrFeedback_shiftLeft_toNat l (by decide), lfsrFeedback_toNat, Nat.shiftLeft_eq,
    lfsrStep_wide_toNat, sub_bit6_add_bit14]

/-- Settles O36, by the values of the wide and of the narrow step; the four examples are evaluated. -/
theorem lfsrStepShiftsInTheFeedbackBit : Obligations.LfsrStepShiftsInTheFeedbackBit :=
  fun l => ⟨lfsrStep_wide_toNat l, lfsrStep_narrow_toNat l, by decide⟩

/-! ## The timer of channel 4 in a STEP (R211, R213) -/

/-- The reload as a product (R211, 30_encoding R89). -/
theorem noiseReload_eq (p : Params) (c : Noise) :
    noiseReload p c = p.noiseDivisorTable[c.divisorCode.toNat]'c.divisorCode.isLt * 2 ^ c.clockShift.toNat :=
  Nat.shiftLeft_eq _ _

/-- A noise timer above 1 counts. -/
theorem noise_counts {p : Params} {c : Noise} (h : 1 < c.period) :
    c.clockTimer p = { c with period := c.period - 1 } := by
  rw [Noise.clockTimer, countdown_counts h]
  rfl

/-- A noise timer at 0 or 1 expires: it reloads, and the LFSR steps (R213). -/
theorem noise_expires {p : Params} {c : Noise} (h : c.period ≤ 1) :
    c.clockTimer p = { c with period := noiseReload p c, lfsr := lfsrStep c.lfsr c.widthMode } := by
  rw [Noise.clockTimer, countdown_expires h]
  rfl

/-- A completed STEP leaves the timer and the LFSR of channel 4 as its timer's clock leaves them: no tick of the frame
sequencer writes the two (43_frame_sequencer R232). -/
theorem exec_step_noiseTimer {s t : State} (h : exec .step s = .next t) :
    t.apu.ch4.period = (s.apu.ch4.clockTimer s.params).period
      ∧ t.apu.ch4.lfsr = (s.apu.ch4.clockTimer s.params).lfsr := by
  obtain ⟨-, -, -, ⟨hlfsr, -, -, -, hperiod⟩, -⟩ := cycle_rest s.params s.apu
  rw [exec_apu h]
  exact ⟨hperiod, hlfsr⟩

/-- Settles O42: the timer's clock counts above 1, and at 0 or 1 reloads and steps the LFSR. -/
theorem stepClocksTheNoiseTimer : Obligations.StepClocksTheNoiseTimer := by
  intro s t h c
  obtain ⟨hperiod, hlfsr⟩ := exec_step_noiseTimer h
  constructor
  · intro hcounts
    rw [noise_counts hcounts] at hperiod hlfsr
    exact ⟨hperiod, hlfsr⟩
  · intro hexpires
    rw [noise_expires hexpires] at hperiod hlfsr
    exact ⟨hperiod.trans (noiseReload_eq _ _), hlfsr⟩

/-! ## The control register: NR44 (R203, R212) -/

/-- A trigger's envelope reset, with the latch cleared only where it is in use (40_pulse R131). -/
theorem Envelope.trigger_eq (p : Params) (e : Envelope) :
    e.trigger p = { e with
      volume := e.volumeInit.toNat
      volumeCounter := e.volumePeriod.toNat
      envFrozen := !p.envFreezeLatch && e.envFrozen } := by
  rw [Envelope.trigger]
  cases p.envFreezeLatch <;> rfl

/-- A write of NR44 without bit 7 sets the length enable alone. -/
theorem Noise.writeControl_noTrigger {d : Byte} (h : bit d 7 = false) (p : Params) (c : Noise) :
    c.writeControl p d = { c with lengthEnabled := bit d 6 } := by
  rw [Noise.writeControl, triggerField_eq, h, lengthEnableField_eq]
  rfl

/-- A write of NR44 with bit 7 sets the length enable, then triggers the channel. -/
theorem Noise.writeControl_trigger {d : Byte} (h : bit d 7 = true) (p : Params) (c : Noise) :
    c.writeControl p d = Noise.trigger p { c with lengthEnabled := bit d 6 } := by
  rw [Noise.writeControl, triggerField_eq, h, lengthEnableField_eq]
  rfl

/-- An accepted WRITE NR44 completes, and its effect is channel 4's control write alone. -/
theorem exec_writeNr44 {s : State} (hr : s.Running) (ha : s.AcceptsWrites) (d : Byte) :
    exec (.writeNr44 d) s = .next (s.onApu fun p => Apu.mapCh4 (Noise.writeControl p d)) :=
  perform_writeByte hr ha hr

/-- Settles O34: the write's effect with and without bit 7; the trigger's, with its reload and its envelope rewritten
into the spec's terms. -/
theorem writeNr44TriggersTheNoise : Obligations.WriteNr44TriggersTheNoise := by
  intro d s hr ha c after
  refine ⟨?_, writeWord_toNat _ d⟩
  have hafter : c.writeControl s.params d = after := by
    cases hbit : bit d 7 with
    | false =>
      rw [Noise.writeControl_noTrigger hbit]
      simp [after, hbit]
    | true =>
      rw [Noise.writeControl_trigger hbit, Noise.trigger, Envelope.trigger_eq, noiseReload_eq]
      simp [after, hbit, Channel.trigger]
  rw [exec_writeNr44 hr ha, ← hafter]
  rfl

/-! ## READs with the default masks (R205-R208) -/

/-- NR43: every bit is a field's (R207). -/
theorem naturalPolynomial_or_mask (c : Noise) :
    naturalPolynomial c ||| 0x00#8
      = BitVec.ofNat 8 (16 * c.clockShift.toNat + 8 * c.widthMode.toNat + c.divisorCode.toNat) := by
  rw [BitVec.or_zero, ← naturalPolynomial_toNat, BitVec.ofNat_toNat, BitVec.setWidth_eq]

/-- Settles O35: each READ's reply is its natural value under the default mask of its address. -/
theorem noiseRegisterReads : Obligations.NoiseRegisterReads := by
  intro s hr hp
  refine ⟨?_, ?_, ?_, ?_, rfl⟩
  · exact answers_of_defaultMask hr hp rfl (by decide) BitVec.zero_or
  · exact answers_of_defaultMask hr hp rfl (by decide) (naturalEnvelope_or_mask _)
  · exact answers_of_defaultMask hr hp rfl (by decide) (naturalPolynomial_or_mask _)
  · exact answers_of_defaultMask hr hp rfl (by decide) (naturalControl_or_mask _)

end Sys2Proof.Machine

/-! What a READ of the mixer's registers, of the unused addresses and of the wave RAM hands over with the default masks
(44_mixer_control R251, R253, R256, R263; 41_wave R184). -/

namespace Sys2Proof.Machine

/-! ## The word of a READ -/

/-- A READ word as a number: the address in its place and nothing else (30_encoding R80). -/
theorem readWord_toNat (a : Addr) : (mkWord 0b00#2 0#6 a 0#8).toNat = 256 * a.toNat := by
  rw [mkWord_toNat, BitVec.toNat_ofNat, BitVec.toNat_ofNat, BitVec.toNat_ofNat]
  omega

/-! ## The natural values under their default masks (30_encoding R92) -/

/-- Under the mask 0x00 a READ hands over the natural value's number. -/
theorem or_zero_eq_ofNat {x : Byte} {n : Nat} (hx : x.toNat = n) : x ||| 0x00#8 = BitVec.ofNat 8 n := by
  rw [BitVec.or_zero, ← hx, BitVec.ofNat_toNat, BitVec.setWidth_eq]

/-- The routing byte as a number, flag by flag: the left side in the high nibble (R253). -/
theorem naturalRouting_toNat_flags (m : Mixer) :
    (naturalRouting m).toNat
      = 16 * (m.routeLeft.ch1.toNat + 2 * m.routeLeft.ch2.toNat + 4 * m.routeLeft.ch3.toNat + 8 * m.routeLeft.ch4.toNat)
        + (m.routeRight.ch1.toNat + 2 * m.routeRight.ch2.toNat + 4 * m.routeRight.ch3.toNat
          + 8 * m.routeRight.ch4.toNat) := by
  rw [naturalRouting_toNat, routingBits_toNat, routingBits_toNat]

/-- NR52: bits 6 to 4 read 1 (R256). -/
theorem naturalStatus_or_mask (a : Apu) :
    naturalStatus a ||| 0x70#8 = BitVec.ofNat 8 (128 * a.power.toNat + 0x70
      + (a.ch1.enabled.toNat + 2 * a.ch2.enabled.toNat + 4 * a.ch3.enabled.toNat + 8 * a.ch4.enabled.toNat)) := by
  have hd : naturalStatus a &&& 0x70#8 = 0#8 := by
    change naturalStatus a &&& (0#1 ++ 7#3 ++ 0#1 ++ 0#1 ++ 0#1 ++ 0#1) = 0#8
    rw [naturalStatus]
    iterate 5 rw [BitVec.and_append]
    iterate 5 rw [BitVec.and_zero]
    rfl
  rw [or_eq_ofNat_add (naturalStatus_toNat a) (k := 0x70) rfl hd, ← Nat.add_assoc, Nat.add_comm 0x70]

/-! ## The default masks of the addresses that come in blocks -/

theorem readMaskAt_default_unused (j : BitVec 3) : readMaskAt Params.default (0x1FE5#13 ++ j) = 0xFF#8 := by
  revert j
  decide

theorem readMaskAt_default_wave (i : BitVec 4) : readMaskAt Params.default (0xFF3#12 ++ i) = 0x00#8 := by
  revert i
  decide

/-! ## READs with the default masks -/

/-- Settles O52: each READ's reply is its natural value under the default mask of its address. -/
theorem mixerUnusedAndWaveRamReads : Obligations.MixerUnusedAndWaveRamReads := by
  intro s hr hp
  refine ⟨?_, ?_, ?_, ?_, ?_, ?_, fun j => ?_, fun i => ?_, rfl, fun j => ?_, fun i => ?_⟩
  · exact answers_of_defaultMask hr hp rfl (by decide) (or_zero_eq_ofNat (naturalMasterVolume_toNat _))
  · exact answers_of_defaultMask hr hp rfl (by decide) (or_zero_eq_ofNat (naturalRouting_toNat_flags _))
  · exact answers_of_defaultMask hr hp rfl (by decide) (naturalStatus_or_mask _)
  · exact answers_of_defaultMask hr hp rfl (by decide) BitVec.zero_or
  · exact answers_of_defaultMask hr hp rfl (by decide) BitVec.zero_or
  · exact answers_of_defaultMask hr hp rfl (by decide) BitVec.zero_or
  · exact answers_of_defaultMask hr hp rfl (readMaskAt_default_unused j) BitVec.zero_or
  · exact answers_of_defaultMask hr hp rfl (readMaskAt_default_wave i) BitVec.or_zero
  · rw [encode, readWord_toNat, unusedAddress_toNat]
    omega
  · rw [encode, readWord_toNat, waveAddress_toNat]
    omega

end Sys2Proof.Machine

/-! The operation words (30_encoding R80, R84, R90): encoding and decoding invert each other, and the three verdicts in the
word's own bits. The one fact behind all of them: the table's row of an address holds that address, so a READ or WRITE is
its address and its data. -/

namespace Sys2Proof

/-! ## The rows of the table by address -/

/-- The READ row of an address is encoded with that address. -/
theorem encode_readAt (a : Addr) : encode (readAt a) = mkWord 0b00#2 0#6 a 0#8 := by
  rcases addr_cases a with h | ⟨n, rfl⟩ | ⟨j, rfl⟩ | ⟨i, rfl⟩
  · rw [readAt_outside (not_inWindow_iff.2 h), encode]
  · revert n
    decide
  · rw [readAt_unused, encode]
  · rw [readAt_wave, encode]

/-- The WRITE row of an address is encoded with that address and the data. -/
theorem encode_writeAt (a : Addr) (d : Byte) : encode (writeAt a d) = mkWord 0b01#2 0#6 a d := by
  rcases addr_cases a with h | ⟨n, rfl⟩ | ⟨j, rfl⟩ | ⟨i, rfl⟩
  · rw [writeAt_outside d (not_inWindow_iff.2 h), encode]
  · fin_cases n <;> rfl
  · rw [writeAt_unused, encode]
  · rw [writeAt_wave, encode]

/-- The READ row of an address is at that address. -/
theorem addr_readAt (a : Addr) : (readAt a).addr? = some a := by
  rcases addr_cases a with h | ⟨n, rfl⟩ | ⟨j, rfl⟩ | ⟨i, rfl⟩
  · rw [readAt_outside (not_inWindow_iff.2 h), Instr.addr?]
  · revert n
    decide
  · rw [readAt_unused, Instr.addr?]
  · rw [readAt_wave, Instr.addr?]

/-- The WRITE row of an address is at that address. -/
theorem addr_writeAt (a : Addr) (d : Byte) : (writeAt a d).addr? = some a := by
  rcases addr_cases a with h | ⟨n, rfl⟩ | ⟨j, rfl⟩ | ⟨i, rfl⟩
  · rw [writeAt_outside d (not_inWindow_iff.2 h), Instr.addr?]
  · fin_cases n <;> rfl
  · rw [writeAt_unused, Instr.addr?]
  · rw [writeAt_wave, Instr.addr?]

/-- The READ row of an address is well formed: the out-of-window row is given only outside the window. -/
theorem readAt_wellFormed (a : Addr) : (readAt a).WellFormed := by
  rcases addr_cases a with h | ⟨n, rfl⟩ | ⟨j, rfl⟩ | ⟨i, rfl⟩
  · have hout : inWindow a = false := not_inWindow_iff.2 h
    rw [readAt_outside hout]
    exact congrArg not hout
  · revert n
    decide
  · rw [readAt_unused]; rfl
  · rw [readAt_wave]; rfl

/-- The WRITE row of an address is well formed. -/
theorem writeAt_wellFormed (a : Addr) (d : Byte) : (writeAt a d).WellFormed := by
  rcases addr_cases a with h | ⟨n, rfl⟩ | ⟨j, rfl⟩ | ⟨i, rfl⟩
  · have hout : inWindow a = false := not_inWindow_iff.2 h
    rw [writeAt_outside d hout]
    exact congrArg not hout
  · fin_cases n <;> rfl
  · rw [writeAt_unused]; rfl
  · rw [writeAt_wave]; rfl

/-- A well-formed READ or WRITE is the row of its address, with the data of its word (30_encoding R90). -/
theorem row_of_addr {i : Instr} {a : Addr} (hw : i.WellFormed) (ha : i.addr? = some a) :
    i = if opField (encode i) = 0b00#2 then readAt a else writeAt a (dataField (encode i)) := by
  cases i
  case readWave k =>
    cases ha
    simp [encode, readAt_wave]
  case readUnusedFf28To2f j =>
    cases ha
    simp [encode, readAt_unused]
  case readOutOfWindow b =>
    cases ha
    simp [encode, readAt_outside (Bool.not_eq_eq_eq_not.1 hw)]
  case writeWave k d =>
    cases ha
    simp [encode, writeAt_wave]
  case writeUnusedFf28To2f j d =>
    cases ha
    simp [encode, writeAt_unused]
  case writeOutOfWindow b d =>
    cases ha
    simp [encode, writeAt_outside d (Bool.not_eq_eq_eq_not.1 hw)]
  case step => cases ha
  case sample => cases ha
  all_goals
    cases ha
    simp only [encode, opField_mkWord, dataField_mkWord]
    rfl

/-! ## The words the decoder accepts -/

/-- What R84(a) asks of an invalid word. -/
def BadWord (w : Word) : Prop :=
  zField w ≠ 0#6 ∨ (opField w = 0b00#2 ∧ dataField w ≠ 0#8)
    ∨ (opField w = 0b10#2 ∨ opField w = 0b11#2) ∧ (addrField w ≠ 0#16 ∨ dataField w ≠ 0#8)

/-- A word is invalid, or one of the four kinds of operation word (30_encoding R80, R84). -/
theorem word_cases (w : Word) :
    (BadWord w ∧ ∃ e, decode w = .error e) ∨ (∃ a, w = mkWord 0b00#2 0#6 a 0#8) ∨ (∃ a d, w = mkWord 0b01#2 0#6 a d)
      ∨ w = mkWord 0b10#2 0#6 0#16 0#8 ∨ w = mkWord 0b11#2 0#6 0#16 0#8 := by
  have hw := mkWord_fields w
  by_cases hz : zField w = 0#6
  case neg => exact .inl ⟨.inl hz, _, if_pos hz⟩
  have hop : opField w = 0b00#2 ∨ opField w = 0b01#2 ∨ opField w = 0b10#2 ∨ opField w = 0b11#2 := by
    generalize opField w = op
    revert op
    decide
  rw [hz] at hw
  rcases hop with hop | hop | hop | hop <;> rw [hop] at hw
  · by_cases hd : dataField w = 0#8
    · exact .inr (.inl ⟨_, (hd ▸ hw).symm⟩)
    · exact .inl ⟨.inr (.inl ⟨hop, hd⟩), .readWithData, by simp [decode, hz, hop, hd]⟩
  · exact .inr (.inr (.inl ⟨_, _, hw.symm⟩))
  · by_cases hd : addrField w = 0#16 ∧ dataField w = 0#8
    · exact .inr (.inr (.inr (.inl (by rw [← hw, hd.1, hd.2]))))
    · rw [not_and_or] at hd
      exact .inl ⟨.inr (.inr ⟨.inl hop, hd⟩), .stepWithOperand, by simp [decode, hz, hop, hd]⟩
  · by_cases hd : addrField w = 0#16 ∧ dataField w = 0#8
    · exact .inr (.inr (.inr (.inr (by rw [← hw, hd.1, hd.2]))))
    · rw [not_and_or] at hd
      exact .inl ⟨.inr (.inr ⟨.inr hop, hd⟩), .sampleWithOperand, by simp [decode, hz, hop, hd]⟩

/-- The decoder on a STEP word. -/
theorem decode_stepWord : decode (mkWord 0b10#2 0#6 0#16 0#8) = .ok .step := rfl

/-- The decoder on a SAMPLE word. -/
theorem decode_sampleWord : decode (mkWord 0b11#2 0#6 0#16 0#8) = .ok .sample := rfl

/-! ## Decoding and encoding -/

/-- An operation without an address is STEP or SAMPLE. -/
theorem step_or_sample_of_no_addr {i : Instr} (h : i.addr? = none) : i = .step ∨ i = .sample := by
  cases i
  case step => exact .inl rfl
  case sample => exact .inr rfl
  all_goals cases h

/-- The decoder reads a well-formed operation back from its word. -/
theorem decode_encode {i : Instr} (hw : i.WellFormed) : decode (encode i) = .ok i := by
  cases ha : i.addr? with
  | none =>
    rcases step_or_sample_of_no_addr ha with rfl | rfl
    · exact decode_stepWord
    · exact decode_sampleWord
  | some a =>
    rw [row_of_addr hw ha]
    split
    · rw [encode_readAt, decode_readWord]
    · rw [encode_writeAt, decode_writeWord]

/-- Settles O1: a READ or WRITE is the row of its address, and the decoder reads that row; STEP and SAMPLE have one word
each. -/
theorem decodeInvertsEncode : Obligations.DecodeInvertsEncode := fun _ hw => decode_encode hw

/-- Settles O2: an accepted word is one of four kinds, and each kind's operation is encoded as that word. -/
theorem encodeInvertsDecode : Obligations.EncodeInvertsDecode := by
  intro w i h
  rcases word_cases w with ⟨-, e, he⟩ | ⟨a, rfl⟩ | ⟨a, d, rfl⟩ | rfl | rfl
  · rw [he] at h
    cases h
  · rw [decode_readWord] at h
    cases h
    exact ⟨readAt_wellFormed a, encode_readAt a⟩
  · rw [decode_writeWord] at h
    cases h
    exact ⟨writeAt_wellFormed a d, encode_writeAt a d⟩
  · rw [decode_stepWord] at h
    cases h
    exact ⟨rfl, rfl⟩
  · rw [decode_sampleWord] at h
    cases h
    exact ⟨rfl, rfl⟩

/-- Settles O4: the words are decoded. -/
theorem workedEncodingsDecode : Obligations.WorkedEncodingsDecode := by
  unfold Obligations.WorkedEncodingsDecode
  exact ⟨rfl, rfl, rfl, rfl, rfl, rfl, rfl, rfl, rfl, rfl, rfl, rfl⟩

/-! ## The verdicts (R84) -/

/-- The verdict on a READ word is the window's. -/
theorem verdict_readWord (a : Addr) :
    verdict (mkWord 0b00#2 0#6 a 0#8) = if inWindow a then .valid (readAt a) else .outOfWindow (readAt a) := by
  simp only [verdict, decode_readWord, addr_readAt]

/-- The verdict on a WRITE word is the window's. -/
theorem verdict_writeWord (a : Addr) (d : Byte) :
    verdict (mkWord 0b01#2 0#6 a d) = if inWindow a then .valid (writeAt a d) else .outOfWindow (writeAt a d) := by
  simp only [verdict, decode_writeWord, addr_writeAt]

/-- An address is outside the window exactly below 0xFF10 or above 0xFF3F. -/
theorem inWindow_iff {a : Addr} : inWindow a = true ↔ ¬ (a.toNat < 0xFF10 ∨ 0xFF3F < a.toNat) := by
  rw [← not_inWindow_iff, Bool.not_eq_false]

/-- The invalid words, in the word's own bits (R84(a)). -/
def InvalidBits (w : Word) : Prop :=
  w.toNat / 2 ^ 24 % 64 ≠ 0 ∨ (w.toNat / 2 ^ 30 = 0 ∧ w.toNat % 256 ≠ 0)
    ∨ (2 ≤ w.toNat / 2 ^ 30 ∧ (w.toNat / 2 ^ 8 % 65536 ≠ 0 ∨ w.toNat % 256 ≠ 0))

/-- A READ or WRITE word whose address is outside the window, in the word's own bits (R84(b)). -/
def OutsideBits (w : Word) : Prop :=
  w.toNat / 2 ^ 30 ≤ 1 ∧ (w.toNat / 2 ^ 8 % 65536 < 0xFF10 ∨ 0xFF3F < w.toNat / 2 ^ 8 % 65536)

theorem invalidBits_of_badWord {w : Word} (h : BadWord w) : InvalidBits w := by
  have ne {n : Nat} {x y : BitVec n} (h : x ≠ y) : x.toNat ≠ y.toNat := fun e => h (BitVec.eq_of_toNat_eq e)
  have hop := opField_toNat w
  have hz := zField_toNat w
  have ha := addrField_toNat w
  have hd := dataField_toNat w
  rcases h with h | ⟨h1, h2⟩ | ⟨h1, h2⟩
  · exact .inl (hz ▸ ne h)
  · exact .inr (.inl ⟨hop ▸ congrArg BitVec.toNat h1, hd ▸ ne h2⟩)
  · refine .inr (.inr ⟨?_, h2.imp (fun h => ha ▸ ne h) (fun h => hd ▸ ne h)⟩)
    rcases h1 with h1 | h1 <;> (rw [← hop, h1]; decide)

/-- The bits of a word of an address and data: it is not invalid where a READ has no data. -/
theorem bits_of_accessWord {op : BitVec 2} {a : Addr} {d : Byte} (hop : op.toNat ≤ 1)
    (hd : op.toNat = 0 → d.toNat = 0) :
    ¬ InvalidBits (mkWord op 0#6 a d)
      ∧ (OutsideBits (mkWord op 0#6 a d) ↔ a.toNat < 0xFF10 ∨ 0xFF3F < a.toNat) := by
  have := a.isLt
  have := d.isLt
  have hw := mkWord_toNat op 0#6 a d
  rw [BitVec.toNat_ofNat] at hw
  unfold InvalidBits OutsideBits
  generalize (mkWord op 0#6 a d).toNat = n at hw
  generalize op.toNat = o at *
  omega

/-- The verdict on a READ or WRITE word of an address, by its bits. -/
theorem verdict_access_cases {w : Word} {op : BitVec 2} {a : Addr} {d : Byte} {i : Instr} (hw : w = mkWord op 0#6 a d)
    (hop : op.toNat ≤ 1) (hd : op.toNat = 0 → d.toNat = 0) (hi : encode i = w)
    (hv : verdict w = if inWindow a then .valid i else .outOfWindow i) :
    (¬ InvalidBits w ∧ OutsideBits w ∧ ∃ i, verdict w = .outOfWindow i ∧ encode i = w)
      ∨ (¬ InvalidBits w ∧ ¬ OutsideBits w ∧ ∃ i, verdict w = .valid i ∧ encode i = w) := by
  obtain ⟨hinvalid, houtside⟩ := bits_of_accessWord (a := a) hop hd
  rw [← hw] at hinvalid houtside
  rw [houtside, ← not_inWindow_iff]
  cases hin : inWindow a
  · exact .inl ⟨hinvalid, rfl, i, by rw [hv, hin]; rfl, hi⟩
  · exact .inr ⟨hinvalid, nofun, i, by rw [hv, hin]; rfl, hi⟩

/-- A word has one of three verdicts, by its bits; an accepted word is the word of its operation. -/
theorem verdict_cases (w : Word) :
    (InvalidBits w ∧ ∃ e, verdict w = .invalid e)
      ∨ (¬ InvalidBits w ∧ OutsideBits w ∧ ∃ i, verdict w = .outOfWindow i ∧ encode i = w)
      ∨ (¬ InvalidBits w ∧ ¬ OutsideBits w ∧ ∃ i, verdict w = .valid i ∧ encode i = w) := by
  rcases word_cases w with ⟨hbad, e, he⟩ | ⟨a, rfl⟩ | ⟨a, d, rfl⟩ | rfl | rfl
  · exact .inl ⟨invalidBits_of_badWord hbad, e, by rw [verdict, he]⟩
  · exact .inr (verdict_access_cases rfl (by decide) (fun _ => rfl) (encode_readAt a) (verdict_readWord a))
  · exact .inr (verdict_access_cases rfl (by decide) (fun h => nomatch h) (encode_writeAt a d) (verdict_writeWord a d))
  · exact .inr (.inr ⟨by unfold InvalidBits; decide, by unfold OutsideBits; decide, .step, rfl, rfl⟩)
  · exact .inr (.inr ⟨by unfold InvalidBits; decide, by unfold OutsideBits; decide, .sample, rfl, rfl⟩)

/-- Settles O3: the three verdicts exclude each other, and each goes with its bits. -/
theorem verdictsPartitionTheWords : Obligations.VerdictsPartitionTheWords := by
  intro w
  change ((∃ e, verdict w = .invalid e) ↔ InvalidBits w)
    ∧ ((∃ i, verdict w = .outOfWindow i) ↔ ¬ InvalidBits w ∧ OutsideBits w)
    ∧ ((∃ i, verdict w = .valid i) ↔ ¬ InvalidBits w ∧ ¬ OutsideBits w) ∧ _
  rcases verdict_cases w with ⟨hbits, e, hv⟩ | ⟨hbits, hout, i, hv, hi⟩ | ⟨hbits, hout, i, hv, hi⟩
  · simp [hv, hbits]
  · simp [hv, hbits, hout, hi]
  · simp [hv, hbits, hout, hi]

end Sys2Proof

/-! What one STEP does, unit by unit (43_frame_sequencer R231-R233, 40_pulse R129-R134): the countdown, the timers of the
pulse channels, the length tick, the sweep and the envelopes, and the frame of a STEP. -/

namespace Sys2Proof.Machine

/-! ## The countdown (R129) -/

/-- A counter at `n` holds `n - k` after `k < n` clocks: none of them expires. -/
theorem countdown_iterate {n k : Nat} (r : Nat) (h : k < n) : (fun x => (countdown x r).1)^[k] n = n - k := by
  induction k with
  | zero => rfl
  | succ k ih =>
    rw [Function.iterate_succ_apply', ih (by omega), countdown_counts (by omega)]
    dsimp only
    omega

/-- Settles O38: the two cases of a clock; after `k` clocks the counter is at 1 exactly where `k + 1 = n`. -/
theorem countdownExpiresOnItsNthClock : Obligations.CountdownExpiresOnItsNthClock := by
  constructor
  · intro x r
    split
    · next h => exact countdown_expires h
    · next h => exact countdown_counts (by omega)
  · intro n r k h
    refine ⟨countdown_iterate r h, ?_⟩
    by_cases hlast : k + 1 = n
    · rw [countdown_expires (by omega), decide_eq_true hlast]
    · rw [countdown_counts (by omega), decide_eq_false hlast]

/-! ## The timers -/

/-- A pulse timer above 1 counts. -/
theorem pulse_counts {c : Pulse} (h : 1 < c.period) : c.clockTimer = { c with period := c.period - 1 } := by
  rw [Pulse.clockTimer, countdown_counts h]
  rfl

/-- A pulse timer at 0 or 1 expires: it reloads, and the duty phase advances (R130). -/
theorem pulse_expires {c : Pulse} (h : c.period ≤ 1) :
    c.clockTimer = { c with period := pulseReload c.frequency, dutyIdx := c.dutyIdx + 1#3 } := by
  rw [Pulse.clockTimer, countdown_expires h]
  rfl

/-- The period and the duty phase after a clock of a pulse timer, in the arithmetic of naturals (R130). -/
theorem pulse_clockTimer_eq (c : Pulse) :
    c.clockTimer.period = (if c.period ≤ 1 then (2048 - c.frequency.toNat) * 4 else c.period - 1)
      ∧ c.clockTimer.dutyIdx.toNat = if c.period ≤ 1 then (c.dutyIdx.toNat + 1) % 8 else c.dutyIdx.toNat := by
  by_cases h : c.period ≤ 1
  · rw [pulse_expires h, if_pos h, if_pos h]
    exact ⟨rfl, BitVec.toNat_add _ _⟩
  · rw [pulse_counts (by omega), if_neg h, if_neg h]
    exact ⟨rfl, rfl⟩

/-- Of a channel's common fields the wave timer writes its period alone. -/
theorem wave_clockTimer_channel (c : Wave) :
    c.clockTimer.toChannel = { c.toChannel with period := c.clockTimer.period } := by
  rcases Nat.lt_or_ge 1 c.period with h | h
  · rw [wave_counts h]
  · rw [wave_expires h]

/-- Settles O40: after the timers' clock no tick writes a pulse's period or duty phase. -/
theorem stepClocksThePulseTimers : Obligations.StepClocksThePulseTimers := by
  refine ⟨?_, pulseReload_range⟩
  intro s t h period idx
  obtain ⟨-, -, -, -, ⟨-, hidx1, hperiod1⟩, ⟨-, hidx2, -, hperiod2⟩, -⟩ := cycle_rest s.params s.apu
  obtain ⟨hp1, hi1⟩ := pulse_clockTimer_eq s.apu.ch1
  obtain ⟨hp2, hi2⟩ := pulse_clockTimer_eq s.apu.ch2
  rw [exec_apu h]
  exact ⟨⟨hperiod1.trans hp1, (congrArg _ hidx1).trans hi1⟩, hperiod2.trans hp2, (congrArg _ hidx2).trans hi2⟩

/-! ## The frame sequencer -/

/-- The frame sequencer after a STEP (R231). -/
theorem exec_step_fs {s t : State} (h : exec .step s = .next t) :
    t.apu.fs = if s.TickDue then ⟨8192, s.apu.fs.frame + 1#3⟩ else ⟨s.apu.fs.period - 1, s.apu.fs.frame⟩ := by
  obtain ⟨-, hfs, -⟩ := cycle_rest s.params s.apu
  rw [exec_apu h]
  exact hfs

/-- Settles O43: the divider's two cases, the frame's addition modulo 8. -/
theorem stepAdvancesTheFrameSequencer : Obligations.StepAdvancesTheFrameSequencer := by
  intro s t h
  rw [exec_step_fs h]
  split
  · exact ⟨rfl, BitVec.toNat_add _ _⟩
  · exact ⟨rfl, rfl⟩

/-! ## The length tick (R132) -/

/-- A channel's common fields after the length tick of a STEP, where there is one. -/
def State.lengthTick (s : State) (c : Channel) : Channel := if s.LengthDue then c.clockLength else c

/-- The length tick counts an enabled counter above 0 down, and disables the channel at 0. -/
theorem State.lengthTick_eq (s : State) (c : Channel) :
    s.lengthTick c = { c with
      lengthCounter := if s.LengthCounts c then c.lengthCounter - 1 else c.lengthCounter
      enabled := c.enabled && !decide (s.LengthCounts c ∧ c.lengthCounter = 1) } := by
  unfold State.lengthTick
  by_cases hdue : s.LengthDue
  · rw [if_pos hdue]
    rcases clockLength_cases c with ⟨hn, h⟩ | ⟨hen, hone, h⟩ | ⟨hen, hmore, h⟩ <;> rw [h]
    · have hcounts : ¬ s.LengthCounts c := fun hc => hn hc.2
      simp [hcounts]
    · have hcounts : s.LengthCounts c := ⟨hdue, hen, by omega⟩
      simp [hcounts, hone]
    · have hcounts : s.LengthCounts c := ⟨hdue, hen, by omega⟩
      simp [hcounts, show c.lengthCounter ≠ 1 by omega]
  · have hcounts : ¬ s.LengthCounts c := fun hc => hdue hc.1
    simp [hdue, hcounts]

/-! ## The sweep (R134) -/

/-- What a sweep update writes, field by field, under every policy. -/
theorem applySweep_effect (p : Params) (nf : Nat) (a : Apu) :
    (a.applySweep p nf).sweep = a.sweep
      ∧ (a.applySweep p nf).ch1.frequency.toNat = (if nf ≤ 2047 then nf
        else if p.sweepOverflow = .wrap11 then nf % 2048 else a.ch1.frequency.toNat)
      ∧ (a.applySweep p nf).ch1.enabled = (a.ch1.enabled && !decide (2047 < nf ∧ p.sweepOverflow = .disable))
      ∧ (a.applySweep p nf).fault
        = if 2047 < nf ∧ p.sweepOverflow = .fault then some (.sweepOverflow nf) else a.fault := by
  rcases applySweep_cases p nf a with ⟨hle, h⟩ | ⟨hgt, hp, h⟩ | ⟨hgt, hp, h⟩ | ⟨hgt, hp, h⟩ <;> rw [h]
  · have hmod : nf % 2048 = nf := Nat.mod_eq_of_lt (by omega)
    simp [hle, hmod, Nat.not_lt.2 hle]
  all_goals simp [hgt, hp, Nat.not_le.2 hgt]

/-- A sweep tick clocks the sweep counter (R134). -/
abbrev Sweep.Counts (w : Sweep) : Prop := w.sweepTime ≠ 0#3

/-- A sweep tick updates the frequency (R134). -/
abbrev Sweep.Due (w : Sweep) : Prop := w.Counts ∧ w.sweepCounter ≤ 1

/-- What a sweep tick writes, field by field: the counter, and where it expires the update. -/
theorem clockSweep_effect (p : Params) (a : Apu) :
    (a.clockSweep p).sweep = { a.sweep with
        sweepCounter := if a.sweep.Counts then
            (if a.sweep.sweepCounter ≤ 1 then a.sweep.sweepTime.toNat else a.sweep.sweepCounter - 1)
          else a.sweep.sweepCounter }
      ∧ (a.clockSweep p).ch1.frequency.toNat = (if a.sweep.Due then
          if sweepTarget a.sweep a.ch1.frequency ≤ 2047 then sweepTarget a.sweep a.ch1.frequency
          else if p.sweepOverflow = .wrap11 then sweepTarget a.sweep a.ch1.frequency % 2048 else a.ch1.frequency.toNat
        else a.ch1.frequency.toNat)
      ∧ (a.clockSweep p).ch1.enabled = (a.ch1.enabled
        && !decide ((a.sweep.Due ∧ 2047 < sweepTarget a.sweep a.ch1.frequency) ∧ p.sweepOverflow = .disable))
      ∧ (a.clockSweep p).fault
        = if (a.sweep.Due ∧ 2047 < sweepTarget a.sweep a.ch1.frequency) ∧ p.sweepOverflow = .fault then
            some (.sweepOverflow (sweepTarget a.sweep a.ch1.frequency))
          else a.fault := by
  rcases clockSweep_cases p a with ⟨hoff, h⟩ | ⟨hon, hmore, h⟩ | ⟨hon, hexp, h⟩ <;> rw [h]
  · have hcounts : ¬ a.sweep.Counts := fun hc => hc hoff
    simp [hcounts]
  · have hcounts : a.sweep.Counts := hon
    have hdue : ¬ a.sweep.Due := fun hd => by omega
    simp [hcounts, hdue, Nat.not_le.2 hmore]
  · have hdue : a.sweep.Due := ⟨hon, hexp⟩
    obtain ⟨hsweep, hfreq, henabled, hfault⟩ := applySweep_effect p (sweepTarget a.sweep a.ch1.frequency)
      (a.mapSweep fun w => { w with sweepCounter := w.sweepTime.toNat })
    rw [hsweep, hfreq, henabled, hfault]
    refine ⟨by simp [hon, hexp], by simp [hdue], by simp [hdue], ?_⟩
    exact if_congr (and_congr_left fun _ => (and_iff_right hdue).symm) rfl rfl

/-- A cycle is a sweep tick, where one is due, after a block that differs from the cycle's start in nothing the sweep
reads or writes but the length tick of channel 1. -/
theorem cycle_sweepTick (s : State) :
    ∃ b : Apu, (b.sweep = s.apu.sweep ∧ b.ch1.frequency = s.apu.ch1.frequency ∧ b.fault = s.apu.fault
        ∧ b.ch1.enabled = (s.lengthTick s.apu.ch1.clockTimer.toChannel).enabled)
      ∧ s.apu.cycle s.params = if s.TickDue ∧ s.apu.fs.frame.toNat % 4 = 2 then b.clockSweep s.params else b := by
  rcases Nat.lt_or_ge 1 s.apu.fs.period with htick | htick
  · have hn : ¬ s.TickDue := Nat.not_le.2 htick
    refine ⟨s.apu.cycle s.params, ?_, (if_neg fun h => hn h.1).symm⟩
    rw [cycle_noTick htick, State.lengthTick, if_neg fun h => hn h.1]
    exact ⟨rfl, rfl, rfl, rfl⟩
  · rw [cycle_tick htick]
    let b := (s.apu.clockTimers s.params).setFs ⟨8192, s.apu.fs.frame + 1#3⟩
    have length (h : s.LengthDue) :
        b.clockLengths.ch1.enabled = (s.lengthTick s.apu.ch1.clockTimer.toChannel).enabled := by
      rw [State.lengthTick, if_pos h]; rfl
    have noLength (h : ¬ s.LengthDue) : b.ch1.enabled = (s.lengthTick s.apu.ch1.clockTimer.toChannel).enabled := by
      rw [State.lengthTick, if_neg h]; rfl
    rcases tick_cases s.params s.apu.fs.frame b with
      ⟨h2, -, h4, h⟩ | ⟨h7, h⟩ | ⟨h2, h4, -, h⟩ | ⟨h2, h4, -, h⟩ <;> rw [h]
    · refine ⟨b, ⟨rfl, rfl, rfl, noLength fun hl => by omega⟩, (if_neg fun hs => by omega).symm⟩
    · refine ⟨b.clockEnvelopes s.params, ⟨rfl, rfl, rfl, noLength fun hl => by omega⟩, (if_neg fun hs => by omega).symm⟩
    · refine ⟨b.clockLengths, ⟨rfl, rfl, rfl, length ⟨htick, h2⟩⟩, (if_neg fun hs => by omega).symm⟩
    · exact ⟨b.clockLengths, ⟨rfl, rfl, rfl, length ⟨htick, h2⟩⟩, (if_pos ⟨htick, h4⟩).symm⟩

/-- Everything a cycle does to the sweep, to channel 1's frequency and flag and to the fault mark, in the spec's terms. -/
theorem cycle_sweep (s : State) :
    (s.apu.cycle s.params).sweep = { s.apu.sweep with
        sweepCounter := if s.SweepCounts then
            (if s.apu.sweep.sweepCounter ≤ 1 then s.apu.sweep.sweepTime.toNat else s.apu.sweep.sweepCounter - 1)
          else s.apu.sweep.sweepCounter }
      ∧ (s.apu.cycle s.params).ch1.frequency.toNat = (if s.SweepDue then
          if s.sweepSum ≤ 2047 then s.sweepSum
          else if s.params.sweepOverflow = .wrap11 then s.sweepSum % 2048 else s.apu.ch1.frequency.toNat
        else s.apu.ch1.frequency.toNat)
      ∧ (s.apu.cycle s.params).ch1.enabled = ((s.lengthTick s.apu.ch1.clockTimer.toChannel).enabled
        && !decide (s.SweepOverflows ∧ s.params.sweepOverflow = .disable))
      ∧ (s.apu.cycle s.params).fault
        = if s.SweepOverflows ∧ s.params.sweepOverflow = .fault then some (.sweepOverflow s.sweepSum)
          else s.apu.fault := by
  obtain ⟨b, ⟨hsweep, hfreq, hfault, henabled⟩, hcycle⟩ := cycle_sweepTick s
  rw [hcycle]
  by_cases htick : s.TickDue ∧ s.apu.fs.frame.toNat % 4 = 2
  · have hcounts : s.apu.sweep.Counts ↔ s.SweepCounts := ⟨fun h => ⟨htick.1, htick.2, h⟩, fun h => h.2.2⟩
    have heffect := clockSweep_effect s.params b
    rw [hsweep, hfreq, hfault, henabled, sweepTarget_eq] at heffect
    simp only [Sweep.Due, hcounts] at heffect
    rw [if_pos htick]
    exact heffect
  · have hcounts : ¬ s.SweepCounts := fun h => htick ⟨h.1, h.2.1⟩
    rw [if_neg htick]
    simp [hcounts, hsweep, hfreq, hfault, henabled]

/-! ## STEP -/

/-- A completed STEP leaves the cycle's block, with no stop recorded. -/
theorem exec_step_cycle {s t : State} (h : exec .step s = .next t) :
    t = s.onApu Apu.cycle ∧ (s.apu.cycle s.params).fault = none := by
  obtain ⟨-, ht, hrun⟩ := exec_next h
  rw [ht] at hrun
  exact ⟨ht, hrun.1⟩

/-- In a running state a STEP faults with the sum at a sweep overflow under `SWEEP_OVERFLOW = fault`, and completes
otherwise. -/
theorem exec_step_cases {s : State} (h : s.Running) :
    (s.SweepOverflows ∧ s.params.sweepOverflow = .fault ∧ exec .step s = .fault (.sweepOverflow s.sweepSum))
      ∨ (¬ (s.SweepOverflows ∧ s.params.sweepOverflow = .fault) ∧ exec .step s = .next (s.onApu Apu.cycle)) := by
  obtain ⟨-, -, -, hfault⟩ := cycle_sweep s
  obtain ⟨-, -, -, -, -, -, -, -, hrefusal⟩ := cycle_rest s.params s.apu
  have hexec : exec .step s = settle (s.onApu Apu.cycle) := perform_running h
  by_cases hover : s.SweepOverflows ∧ s.params.sweepOverflow = .fault
  · rw [if_pos hover] at hfault
    exact .inl ⟨hover.1, hover.2, hexec.trans (settle_fault_iff.2 hfault)⟩
  · rw [if_neg hover] at hfault
    exact .inr ⟨hover, hexec.trans (settle_running ⟨hfault.trans h.1, hrefusal.trans h.2⟩)⟩

/-- Settles O39: the two cases of a STEP. -/
theorem stepCompletesUnlessTheSweepOverflows : Obligations.StepCompletesUnlessTheSweepOverflows := by
  intro s hs
  rcases exec_step_cases hs with ⟨hover, hpolicy, hexec⟩ | ⟨hover, hexec⟩
  · exact ⟨fun hn => absurd ⟨hover, hpolicy⟩ hn, fun _ _ => hexec, rfl⟩
  · refine ⟨fun _ => ⟨_, hexec, rfl, rfl, ?_⟩, fun h1 h2 => absurd ⟨h1, h2⟩ hover, rfl⟩
    rw [exec_step_fs hexec]
    split <;> rfl

/-- The length counter and the flag of a channel that a timer's clock and then the length tick went over. -/
theorem lengthTick_of_timer (s : State) {c d : Channel} (h : d = { c with period := d.period }) :
    (s.lengthTick d).lengthCounter = (if s.LengthCounts c then c.lengthCounter - 1 else c.lengthCounter)
      ∧ (s.lengthTick d).enabled = (c.enabled && !decide (s.LengthCounts c ∧ c.lengthCounter = 1)) := by
  rw [h, State.lengthTick_eq]
  exact ⟨rfl, rfl⟩

/-- Settles O44: the counters and flags of the length tick after the timers, but for channel 1's flag after the sweep. -/
theorem stepClocksTheLengthCounters : Obligations.StepClocksTheLengthCounters := by
  intro s t h counter stays
  rw [exec_apu h]
  obtain ⟨h1, h2, h3, h4⟩ := cycle_channels s.params s.apu
  obtain ⟨-, -, hsweep, -⟩ := cycle_sweep s
  obtain ⟨hcounter1, hstays1⟩ :=
    lengthTick_of_timer s (c := s.apu.ch1.toChannel) (d := s.apu.ch1.clockTimer.toChannel) rfl
  obtain ⟨hcounter2, hstays2⟩ :=
    lengthTick_of_timer s (c := s.apu.ch2.toChannel) (d := s.apu.ch2.clockTimer.toChannel) rfl
  obtain ⟨hcounter3, hstays3⟩ := lengthTick_of_timer s (wave_clockTimer_channel s.apu.ch3)
  obtain ⟨hcounter4, hstays4⟩ :=
    lengthTick_of_timer s (c := s.apu.ch4.toChannel) (d := (s.apu.ch4.clockTimer s.params).toChannel) rfl
  refine ⟨?_, ?_, ?_, ?_, ?_, ?_, ?_, ?_⟩
  · rcases h1 with h1 | h1
    · exact (congrArg Channel.lengthCounter h1).trans hcounter1
    · exact (congrArg Channel.lengthCounter h1).trans hcounter1
  · exact (congrArg Channel.lengthCounter h2).trans hcounter2
  · exact (congrArg Channel.lengthCounter h3).trans hcounter3
  · exact (congrArg Channel.lengthCounter h4).trans hcounter4
  · exact hsweep.trans (by rw [hstays1])
  · exact (congrArg Channel.enabled h2).trans hstays2
  · exact (congrArg Channel.enabled h3).trans hstays3
  · exact (congrArg Channel.enabled h4).trans hstays4

/-- Settles O45: the sweep's part of a cycle. -/
theorem stepClocksTheSweep : Obligations.StepClocksTheSweep := by
  intro s t h w
  obtain ⟨hsweep, hfrequency, -, -⟩ := cycle_sweep s
  rw [exec_apu h]
  exact ⟨hsweep, hfrequency⟩

/-! ## The envelopes (R133) -/

/-- The three envelopes after a STEP. -/
theorem exec_step_envelopes {s t : State} (h : exec .step s = .next t) :
    let clock (e : Envelope) : Envelope := if s.EnvelopeDue then e.clock s.params else e
    t.apu.ch1.toEnvelope = clock s.apu.ch1.toEnvelope ∧ t.apu.ch2.toEnvelope = clock s.apu.ch2.toEnvelope
      ∧ t.apu.ch4.toEnvelope = clock s.apu.ch4.toEnvelope := by
  have hdue : (s.apu.fs.period ≤ 1 ∧ s.apu.fs.frame.toNat = 7) ↔ s.EnvelopeDue :=
    and_congr_right fun _ => ⟨fun h7 => BitVec.eq_of_toNat_eq h7, fun h7 => congrArg BitVec.toNat h7⟩
  obtain ⟨henvelopes, -⟩ := cycle_rest s.params s.apu
  simp only [hdue] at henvelopes
  rw [exec_apu h]
  exact henvelopes

/-- Settles O46: the cases of an envelope's clock and, at its expiry, of the volume step. -/
theorem stepClocksTheEnvelopes : Obligations.StepClocksTheEnvelopes := by
  intro s t h e he o latch moves
  have hclock : e.2 = if s.EnvelopeDue then o.clock s.params else o := by
    obtain ⟨h1, h2, h4⟩ := exec_step_envelopes h
    simp only [List.mem_cons, List.not_mem_nil, or_false] at he
    rcases he with rfl | rfl | rfl
    · exact h1
    · exact h2
    · exact h4
  rw [hclock]
  by_cases hdue : s.EnvelopeDue
  · rw [if_pos hdue]
    rcases envelopeClock_cases s.params o with ⟨h0, hc⟩ | ⟨h0, hmore, hc⟩ | ⟨h0, hexp, hc⟩ <;> rw [hc]
    · exact ⟨fun _ => rfl, fun _ hn => absurd h0 hn, fun _ hn => absurd h0 hn⟩
    · exact ⟨fun hn => (hn.elim (absurd hdue) h0).elim, fun _ _ _ => rfl, fun _ _ hle => by omega⟩
    · refine ⟨fun hn => (hn.elim (absurd hdue) h0).elim, fun _ _ hmore => by omega, fun _ _ _ => ?_⟩
      rcases stepVolume_cases s.params { o with volumeCounter := o.volumePeriod.toNat } with
        ⟨hl, hf, hv⟩ | ⟨hl, hm, hv⟩ | ⟨hl, hm, hv⟩ <;> rw [hv]
      · exact ⟨fun _ _ => rfl, fun hn => absurd ⟨hl, hf⟩ hn, fun hn => absurd ⟨hl, hf⟩ hn⟩
      · exact ⟨fun h1 h2 => absurd ⟨h1, h2⟩ hl, fun _ _ => rfl, fun _ hn => absurd hm hn⟩
      · exact ⟨fun h1 h2 => absurd ⟨h1, h2⟩ hl, fun _ hn => absurd hn hm, fun _ _ => rfl⟩
  · rw [if_neg hdue]
    exact ⟨fun _ => rfl, fun hn => absurd hn hdue, fun hn => absurd hn hdue⟩

/-! ## The frame of a STEP (R233) -/

/-- Of a channel's common fields a length tick leaves the DAC and the length enable. -/
theorem State.lengthTick_leaves (s : State) (c : Channel) :
    (s.lengthTick c).dacEnabled = c.dacEnabled ∧ (s.lengthTick c).lengthEnabled = c.lengthEnabled := by
  rw [State.lengthTick_eq]
  exact ⟨rfl, rfl⟩

/-- No STEP writes a channel's DAC flag or length enable. -/
theorem exec_step_channels {s t : State} (h : exec .step s = .next t) :
    ∀ c ∈ [(s.apu.ch1.toChannel, t.apu.ch1.toChannel), (s.apu.ch2.toChannel, t.apu.ch2.toChannel),
        (s.apu.ch3.toChannel, t.apu.ch3.toChannel), (s.apu.ch4.toChannel, t.apu.ch4.toChannel)],
      c.2.dacEnabled = c.1.dacEnabled ∧ c.2.lengthEnabled = c.1.lengthEnabled := by
  obtain ⟨h1, h2, h3, h4⟩ := cycle_channels s.params s.apu
  obtain ⟨-, -, hdac3, hlength3, -⟩ := wave_clockTimer_leaves s.apu.ch3
  have hlength := s.lengthTick_leaves
  rw [exec_apu h]
  intro c hc
  simp only [List.mem_cons, List.not_mem_nil, or_false] at hc
  rcases hc with rfl | rfl | rfl | rfl
  · rcases h1 with h1 | h1
    · exact h1 ▸ hlength _
    · exact h1 ▸ hlength _
  · exact h2 ▸ hlength _
  · exact h3 ▸ ⟨(hlength _).1.trans hdac3, (hlength _).2.trans hlength3⟩
  · exact h4 ▸ hlength _

/-- No STEP writes the three fields of NRx2. -/
theorem exec_step_envelopeFields {s t : State} (h : exec .step s = .next t) :
    ∀ e ∈ [(s.apu.ch1.toEnvelope, t.apu.ch1.toEnvelope), (s.apu.ch2.toEnvelope, t.apu.ch2.toEnvelope),
        (s.apu.ch4.toEnvelope, t.apu.ch4.toEnvelope)],
      e.2.volumeInit = e.1.volumeInit ∧ e.2.envDirection = e.1.envDirection ∧ e.2.volumePeriod = e.1.volumePeriod := by
  have tick (e : Envelope) : (if s.EnvelopeDue then e.clock s.params else e).volumeInit = e.volumeInit
      ∧ (if s.EnvelopeDue then e.clock s.params else e).envDirection = e.envDirection
      ∧ (if s.EnvelopeDue then e.clock s.params else e).volumePeriod = e.volumePeriod := by
    split
    · exact envelopeClock_fields s.params e
    · exact ⟨rfl, rfl, rfl⟩
  obtain ⟨h1, h2, h4⟩ := exec_step_envelopes h
  intro e he
  simp only [List.mem_cons, List.not_mem_nil, or_false] at he
  rcases he with rfl | rfl | rfl
  · exact h1 ▸ tick _
  · exact h2 ▸ tick _
  · exact h4 ▸ tick _

/-- Settles O47: the parts of a cycle that no timer and no tick writes. -/
theorem stepLeavesEverythingElse : Obligations.StepLeavesEverythingElse := by
  intro s t h
  obtain ⟨hs, ht, hrun⟩ := exec_next h
  have hhost : t.host = s.host := ht ▸ rfl
  obtain ⟨-, -, ⟨hfreq3, hram, -, -, hcode, -⟩, ⟨-, hshift, hdivisor, hwidth, -⟩, ⟨hduty1, -⟩, ⟨hduty2, -, hfreq2, -⟩,
    hmix, hpower, -⟩ := cycle_rest s.params s.apu
  obtain ⟨-, -, -, -, hram3, hfrequency3, hcode3⟩ := wave_clockTimer_leaves s.apu.ch3
  refine ⟨⟨exec_params h, hhost, ?_, ?_, hrun.1.trans hs.1.symm, hrun.2.trans hs.2.symm⟩, exec_step_channels h,
    exec_step_envelopeFields h, ?_⟩
  all_goals rw [exec_apu h]
  · exact hmix
  · exact hpower
  · exact ⟨⟨hduty1, hduty2, hfreq2, hfreq3.trans hfrequency3⟩,
      ⟨hcode.trans hcode3, fun a => congrArg (Memory.read · a) (hram.trans hram3)⟩, hshift, hdivisor, hwidth⟩

/-! ## Counting STEPs from reset (R234) -/

/-- One more STEP after `n` of them. -/
theorem runSteps_succ {n : Nat} {s u t : State} (hrun : runSteps n s = some u) (hstep : exec .step u = .next t) :
    runSteps (n + 1) s = some t := by
  induction n generalizing s with
  | zero =>
    cases hrun
    simp only [runSteps, hstep]
  | succ n ih =>
    rw [runSteps] at hrun ⊢
    cases hexec : exec .step s with
    | next v =>
      rw [hexec] at hrun
      exact ih hrun
    | fault r => rw [hexec] at hrun; cases hrun
    | refused r => rw [hexec] at hrun; cases hrun

/-- What `k` STEPs from reset leave: no stop, the sweep off, and the frame sequencer `k` clocks on. -/
structure AfterSteps (k : Nat) (s : State) : Prop where
  running : s.Running
  sweepOff : s.apu.sweep.sweepTime = 0#3
  period : s.apu.fs.period = 8192 - k % 8192
  frame : s.apu.fs.frame.toNat = k / 8192 % 8

/-- One STEP further: the sweep is off, so the STEP completes, and the divider counts or expires. -/
theorem AfterSteps.next {k : Nat} {s : State} (h : AfterSteps k s) :
    ∃ t, exec .step s = .next t ∧ AfterSteps (k + 1) t := by
  have hsweep : ¬ s.SweepCounts := fun hc => hc.2.2 h.sweepOff
  rcases exec_step_cases h.running with ⟨hover, -⟩ | ⟨-, hexec⟩
  · exact absurd hover.1.1 hsweep
  · have hfs := exec_step_fs hexec
    have hperiod := h.period
    have hframe := h.frame
    refine ⟨_, hexec, (exec_next hexec).2.2, ?_, ?_, ?_⟩
    · exact (congrArg Sweep.sweepTime (cycle_sweep s).1).trans h.sweepOff
    · rw [hfs]
      split
      · simp only; omega
      · simp only; omega
    · rw [hfs]
      split
      · rw [BitVec.toNat_add, BitVec.toNat_ofNat]; omega
      · simp only; omega

/-- Every number of STEPs from reset completes. -/
theorem runSteps_reset (p : Params) (k : Nat) : ∃ s, runSteps k (State.resetWith p) = some s ∧ AfterSteps k s := by
  induction k with
  | zero => exact ⟨_, rfl, ⟨rfl, rfl⟩, rfl, rfl, rfl⟩
  | succ k ih =>
    obtain ⟨s, hrun, hs⟩ := ih
    obtain ⟨t, hexec, ht⟩ := hs.next
    exact ⟨t, runSteps_succ hrun hexec, ht⟩

/-- Settles O48: the frame sequencer after `k` STEPs; the divider is at 1 exactly where 8192 divides `k + 1`. -/
theorem ticksFallOnEvery8192ndStep : Obligations.TicksFallOnEvery8192ndStep := by
  intro p k
  obtain ⟨s, hrun, hs⟩ := runSteps_reset p k
  have hperiod := hs.period
  have hframe := hs.frame
  refine ⟨s, hrun, hperiod, hframe, ?_, fun n hn => ?_⟩
  · show s.apu.fs.period ≤ 1 ↔ _
    omega
  · omega

end Sys2Proof.Machine

/-! What every step keeps (10_state R22-R34): the machine's invariant, the ranges of the length counters and of the envelope
volumes, the parameters and the program. Each is kept by every operation's effect on the block (`blockEffect`), hence by
every operation and every step. -/

namespace Sys2Proof.Machine

/-! ## From operations to steps -/

/-- A property of the parameters and the block that every operation keeps is kept by every step (10_state R21). -/
theorem step_keeps_of_exec {P : Params → Apu → Prop}
    (hexec : ∀ {i : Instr} {s t : State}, P s.params s.apu → exec i s = .next t → P t.params t.apu) {s t : State}
    (h : P s.params s.apu) (hstep : step s = .next t) : P t.params t.apu := by
  rcases step_next_cases hstep with ⟨rfl, -⟩ | ⟨w, i, u, -, -, he, rfl⟩
  · exact h
  · rw [advance_params, advance_apu]
    exact hexec h he

/-- Settles O17: no operation writes the parameters or the program, and the host's move writes its position alone. -/
theorem parametersAndProgramNeverChange : Obligations.ParametersAndProgramNeverChange := by
  intro s t hstep
  rcases step_next_cases hstep with ⟨rfl, -⟩ | ⟨w, i, u, -, -, he, rfl⟩
  · exact ⟨rfl, rfl⟩
  · rw [advance_params, advance_program]
    exact ⟨exec_params he, (exec_host he).1⟩

/-! ## The writes of NRx4: what the four channels share (40_pulse R137, 42_noise R203) -/

/-- The common fields after a write of NRx4: the length enable, and with bit 7 set the trigger. -/
def Channel.writeControl (lenMax reload : Nat) (d : Byte) (c : Channel) : Channel :=
  if bit d 7 then Channel.trigger lenMax reload { c with lengthEnabled := bit d 6 }
  else { c with lengthEnabled := bit d 6 }

/-- The envelope after a write of NRx4: with bit 7 set the trigger's reset. -/
def Envelope.writeControl (p : Params) (d : Byte) (e : Envelope) : Envelope := if bit d 7 then e.trigger p else e

/-- A write of NR14 or NR24 without bit 7 sets the frequency and the length enable. -/
theorem Pulse.writeFrequencyHigh_noTrigger {d : Byte} (h : bit d 7 = false) (p : Params) (c : Pulse) :
    c.writeFrequencyHigh p d = { c with frequency := frequencyHigh c.frequency d, lengthEnabled := bit d 6 } := by
  rw [Pulse.writeFrequencyHigh, triggerField_eq, h, lengthEnableField_eq]
  rfl

/-- A write of NR14 or NR24 with bit 7 sets the two, then triggers the channel. -/
theorem Pulse.writeFrequencyHigh_trigger {d : Byte} (h : bit d 7 = true) (p : Params) (c : Pulse) :
    c.writeFrequencyHigh p d
      = Pulse.trigger p { c with frequency := frequencyHigh c.frequency d, lengthEnabled := bit d 6 } := by
  rw [Pulse.writeFrequencyHigh, triggerField_eq, h, lengthEnableField_eq]
  rfl

/-- A write of NR34 without bit 7 sets the frequency and the length enable. -/
theorem Wave.writeFrequencyHigh_noTrigger {d : Byte} (h : bit d 7 = false) (c : Wave) :
    c.writeFrequencyHigh d = { c with frequency := frequencyHigh c.frequency d, lengthEnabled := bit d 6 } := by
  rw [Wave.writeFrequencyHigh, triggerField_eq, h, lengthEnableField_eq]
  rfl

/-- A write of NR34 with bit 7 sets the two, then triggers the channel. -/
theorem Wave.writeFrequencyHigh_trigger {d : Byte} (h : bit d 7 = true) (c : Wave) :
    c.writeFrequencyHigh d
      = Wave.trigger { c with frequency := frequencyHigh c.frequency d, lengthEnabled := bit d 6 } := by
  rw [Wave.writeFrequencyHigh, triggerField_eq, h, lengthEnableField_eq]
  rfl

theorem Pulse.writeFrequencyHigh_channel (p : Params) (d : Byte) (c : Pulse) :
    (c.writeFrequencyHigh p d).toChannel
      = c.toChannel.writeControl 64 (pulseReload (frequencyHigh c.frequency d)) d := by
  rw [Channel.writeControl]
  cases h : bit d 7
  · rw [Pulse.writeFrequencyHigh_noTrigger h]; rfl
  · rw [Pulse.writeFrequencyHigh_trigger h]; rfl

theorem Pulse.writeFrequencyHigh_envelope (p : Params) (d : Byte) (c : Pulse) :
    (c.writeFrequencyHigh p d).toEnvelope = c.toEnvelope.writeControl p d := by
  rw [Envelope.writeControl]
  cases h : bit d 7
  · rw [Pulse.writeFrequencyHigh_noTrigger h]; rfl
  · rw [Pulse.writeFrequencyHigh_trigger h]; rfl

theorem Wave.writeFrequencyHigh_channel (d : Byte) (c : Wave) :
    (c.writeFrequencyHigh d).toChannel
      = c.toChannel.writeControl 256 (waveReload (frequencyHigh c.frequency d)) d := by
  rw [Channel.writeControl]
  cases h : bit d 7
  · rw [Wave.writeFrequencyHigh_noTrigger h]; rfl
  · rw [Wave.writeFrequencyHigh_trigger h]; rfl

/-- The write of NR34 leaves the wave RAM and the sample buffer (41_wave R182). -/
theorem Wave.writeFrequencyHigh_leaves (d : Byte) (c : Wave) :
    (c.writeFrequencyHigh d).waveRam = c.waveRam ∧ (c.writeFrequencyHigh d).sampleBuffer = c.sampleBuffer := by
  cases h : bit d 7
  · rw [Wave.writeFrequencyHigh_noTrigger h]; exact ⟨rfl, rfl⟩
  · rw [Wave.writeFrequencyHigh_trigger h]; exact ⟨rfl, rfl⟩

theorem Noise.writeControl_channel (p : Params) (d : Byte) (c : Noise) :
    (c.writeControl p d).toChannel = c.toChannel.writeControl 64 (noiseReload p c) d := by
  rw [Channel.writeControl]
  cases h : bit d 7
  · rw [Noise.writeControl_noTrigger h]; rfl
  · rw [Noise.writeControl_trigger h]; rfl

theorem Noise.writeControl_envelope (p : Params) (d : Byte) (c : Noise) :
    (c.writeControl p d).toEnvelope = c.toEnvelope.writeControl p d := by
  rw [Envelope.writeControl]
  cases h : bit d 7
  · rw [Noise.writeControl_noTrigger h]; rfl
  · rw [Noise.writeControl_trigger h]; rfl

/-! ## The invariant, unit by unit -/

/-- The invariant of a pulse channel. -/
abbrev Pulse.Inv (p : Params) (c : Pulse) : Prop := c.toChannel.Inv 64 8192 ∧ c.toEnvelope.Inv p

/-- The invariant of the wave channel. -/
abbrev Wave.Inv (c : Wave) : Prop :=
  c.toChannel.Inv 256 4096 ∧ Memory.wf c.waveRam = true ∧ Memory.inWaveRam c.waveRam = true

/-- The invariant of the noise channel. -/
abbrev Noise.Inv (p : Params) (c : Noise) : Prop := c.toChannel.Inv 64 (noiseReloadMax p) ∧ c.toEnvelope.Inv p

/-- The control write of a channel within its bounds keeps them. -/
theorem Channel.Inv.writeControl {lenMax periodMax reload : Nat} {c : Channel} (h : c.Inv lenMax periodMax) (d : Byte)
    (hr : reload ≤ periodMax) : (c.writeControl lenMax reload d).Inv lenMax periodMax := by
  unfold Channel.writeControl
  split
  · exact channelTrigger_inv hr h
  · exact h

/-- A trigger, where the data byte asks for one, keeps the envelope's invariant. -/
theorem Envelope.Inv.writeControl {p : Params} {e : Envelope} (h : e.Inv p) (d : Byte) :
    (e.writeControl p d).Inv p := by
  unfold Envelope.writeControl
  split
  · exact envelopeTrigger_inv h
  · exact h

/-- The write of NR14 or NR24 keeps the pulse's invariant. -/
theorem Pulse.writeFrequencyHigh_inv {p : Params} (d : Byte) {c : Pulse} (h : c.Inv p) :
    (c.writeFrequencyHigh p d).Inv p := by
  rw [Pulse.Inv, Pulse.writeFrequencyHigh_channel, Pulse.writeFrequencyHigh_envelope]
  exact ⟨h.1.writeControl d (pulseReload_range _).2, h.2.writeControl d⟩

/-- The write of NR34 keeps the wave channel's invariant. -/
theorem Wave.writeFrequencyHigh_inv (d : Byte) {c : Wave} (h : c.Inv) : (c.writeFrequencyHigh d).Inv := by
  rw [Wave.Inv, Wave.writeFrequencyHigh_channel, (Wave.writeFrequencyHigh_leaves d c).1]
  exact ⟨h.1.writeControl d (waveReload_range _).2, h.2⟩

/-- The write of NR44 keeps the noise channel's invariant. -/
theorem Noise.writeControl_inv {p : Params} (d : Byte) {c : Noise} (h : c.Inv p) : (c.writeControl p d).Inv p := by
  rw [Noise.Inv, Noise.writeControl_channel, Noise.writeControl_envelope]
  exact ⟨h.1.writeControl d (noiseReload_le p c), h.2.writeControl d⟩

/-- A length load within its bound keeps the channel's invariant. -/
theorem Channel.Inv.setLength {lenMax periodMax n : Nat} {c : Channel} (h : c.Inv lenMax periodMax) (hn : n ≤ lenMax) :
    Channel.Inv lenMax periodMax { c with lengthCounter := n } :=
  ⟨h.1, hn, h.2.2⟩

/-- A timer's clock keeps the channel's invariant, where the reload is within the period's bound. -/
theorem Channel.Inv.setPeriod {lenMax periodMax reload : Nat} {c : Channel} (h : c.Inv lenMax periodMax)
    (hr : reload ≤ periodMax) : Channel.Inv lenMax periodMax { c with period := (countdown c.period reload).1 } :=
  ⟨h.1, h.2.1, countdown_le h.2.2 hr⟩

/-- The length tick of a STEP keeps the channel's invariant. -/
theorem Channel.Inv.lengthTick {lenMax periodMax : Nat} {c : Channel} (h : c.Inv lenMax periodMax) (s : State) :
    (s.lengthTick c).Inv lenMax periodMax := by
  unfold State.lengthTick
  split
  · exact clockLength_inv h
  · exact h

/-- The clock of the wave timer keeps the common fields' invariant. -/
theorem Wave.clockTimer_inv {c : Wave} (h : c.toChannel.Inv 256 4096) : c.clockTimer.toChannel.Inv 256 4096 := by
  obtain ⟨hdac, hlength, hperiod⟩ := h
  rcases Nat.lt_or_ge 1 c.period with hc | hc
  · rw [wave_counts hc]
    exact ⟨hdac, hlength, (Nat.sub_le _ _).trans hperiod⟩
  · rw [wave_expires hc]
    exact ⟨hdac, hlength, (waveReload_range _).2⟩

/-- A cycle keeps the block's invariant. -/
theorem cycle_inv {s : State} (h : s.apu.Inv s.params) : (s.apu.cycle s.params).Inv s.params := by
  obtain ⟨⟨hc1, he1⟩, ⟨hc2, he2⟩, ⟨hc3, hwf, hin⟩, ⟨hc4, he4⟩, hsweep, hfs⟩ := h
  obtain ⟨hch1, hch2, hch3, hch4⟩ := cycle_channels s.params s.apu
  obtain ⟨⟨henv1, henv2, henv4⟩, hfs', ⟨-, hram, -⟩, -⟩ := cycle_rest s.params s.apu
  obtain ⟨-, -, -, -, hram3, -, -⟩ := wave_clockTimer_leaves s.apu.ch3
  obtain ⟨hsweep', -⟩ := cycle_sweep s
  have henvelope {e : Envelope} (he : e.Inv s.params) :
      (if s.apu.fs.period ≤ 1 ∧ s.apu.fs.frame.toNat = 7 then e.clock s.params else e).Inv s.params := by
    split
    · exact envelopeClock_inv he
    · exact he
  have ht1 := hc1.setPeriod (pulseReload_range s.apu.ch1.frequency).2
  have ht2 := hc2.setPeriod (pulseReload_range s.apu.ch2.frequency).2
  have ht4 := hc4.setPeriod (noiseReload_le s.params s.apu.ch4)
  refine ⟨⟨?_, henv1 ▸ henvelope he1⟩, ⟨hch2 ▸ ht2.lengthTick s, henv2 ▸ henvelope he2⟩,
    ⟨hch3 ▸ (Wave.clockTimer_inv hc3).lengthTick s, ?_, ?_⟩, ⟨hch4 ▸ ht4.lengthTick s, henv4 ▸ henvelope he4⟩, ?_, ?_⟩
  · rcases hch1 with hch1 | hch1
    · exact hch1 ▸ ht1.lengthTick s
    · obtain ⟨-, hlength, hperiod⟩ := ht1.lengthTick s
      exact hch1 ▸ ⟨fun _ => rfl, hlength, hperiod⟩
  · rw [hram]
    exact hram3 ▸ hwf
  · rw [hram]
    exact hram3 ▸ hin
  · have := s.apu.sweep.sweepTime.isLt
    rw [hsweep']
    dsimp only
    split
    · split <;> omega
    · exact hsweep
  · rw [hfs']
    split
    · exact ⟨(by decide : 1 ≤ 8192), le_rfl⟩
    · dsimp only
      omega

/-- Every operation's effect on the block keeps its invariant: each write keeps that of the unit it writes. -/
theorem blockEffect_inv {s : State} (h : s.apu.Inv s.params) (i : Instr) :
    (blockEffect s.params i s.apu).Inv s.params := by
  obtain ⟨h1, h2, h3, h4, hsweep, hfs⟩ := h
  cases i
  case writeNr11 d => exact ⟨⟨h1.1.setLength (lengthLoad64_range d).2, h1.2⟩, h2, h3, h4, hsweep, hfs⟩
  case writeNr12 d => exact ⟨⟨writeDac_inv _ h1.1, h1.2⟩, h2, h3, h4, hsweep, hfs⟩
  case writeNr14 d => exact ⟨Pulse.writeFrequencyHigh_inv d h1, h2, h3, h4, hsweep, hfs⟩
  case writeNr21 d => exact ⟨h1, ⟨h2.1.setLength (lengthLoad64_range d).2, h2.2⟩, h3, h4, hsweep, hfs⟩
  case writeNr22 d => exact ⟨h1, ⟨writeDac_inv _ h2.1, h2.2⟩, h3, h4, hsweep, hfs⟩
  case writeNr24 d => exact ⟨h1, Pulse.writeFrequencyHigh_inv d h2, h3, h4, hsweep, hfs⟩
  case writeNr30 d => exact ⟨h1, h2, ⟨writeDac_inv _ h3.1, h3.2⟩, h4, hsweep, hfs⟩
  case writeNr31 d => exact ⟨h1, h2, ⟨h3.1.setLength (lengthLoad256_range d).2, h3.2⟩, h4, hsweep, hfs⟩
  case writeNr34 d => exact ⟨h1, h2, Wave.writeFrequencyHigh_inv d h3, h4, hsweep, hfs⟩
  case writeWave k d =>
    have ha : 0xFF30 ≤ waveAddr k ∧ waveAddr k ≤ 0xFF3F := by
      have := k.isLt
      unfold waveAddr
      omega
    exact ⟨h1, h2, ⟨h3.1, Memory.wf_write _ d h3.2.1, Memory.inWaveRam_write d ha h3.2.2⟩, h4, hsweep, hfs⟩
  case writeNr41 d => exact ⟨h1, h2, h3, ⟨h4.1.setLength (lengthLoad64_range d).2, h4.2⟩, hsweep, hfs⟩
  case writeNr42 d => exact ⟨h1, h2, h3, ⟨writeDac_inv _ h4.1, h4.2⟩, hsweep, hfs⟩
  case writeNr44 d => exact ⟨h1, h2, h3, Noise.writeControl_inv d h4, hsweep, hfs⟩
  case step => exact cycle_inv ⟨h1, h2, h3, h4, hsweep, hfs⟩
  all_goals exact ⟨h1, h2, h3, h4, hsweep, hfs⟩

/-- An operation that gives a next state keeps the block's invariant. -/
theorem exec_keeps_inv {i : Instr} {s t : State} (h : s.apu.Inv s.params) (he : exec i s = .next t) :
    t.apu.Inv t.params := by
  rw [exec_apu he, exec_params he]
  exact blockEffect_inv h i

/-- A step keeps the host's position within its program: it moves on only past an operation that is there. -/
theorem step_position_le {s t : State} (h : s.host.position ≤ s.host.program.length) (hstep : step s = .next t) :
    t.host.position ≤ t.host.program.length := by
  rcases step_next_cases hstep with ⟨rfl, -⟩ | ⟨w, i, u, hfetch, -, he, rfl⟩
  · exact h
  · obtain ⟨hprogram, hposition⟩ := exec_host he
    obtain ⟨hlt, -⟩ := List.getElem?_eq_some_iff.1 hfetch
    rw [advance_position, advance_program, hprogram, hposition]
    exact hlt

/-- Settles O13: every operation's effect keeps the block's invariant, and the step the position's bound. -/
theorem everyStepKeepsTheInvariant : Obligations.EveryStepKeepsTheInvariant := fun _ _ h hstep =>
  ⟨step_keeps_of_exec (P := fun p a => a.Inv p) exec_keeps_inv h.1 hstep, step_position_le h.2 hstep⟩

/-! ## Reset -/

/-- A channel's common fields at reset are within every bound (R22). -/
theorem Channel.reset_inv (lenMax periodMax : Nat) : Channel.reset.Inv lenMax periodMax :=
  ⟨fun _ => rfl, Nat.zero_le _, Nat.zero_le _⟩

/-- An envelope at reset is within its bounds (R25). -/
theorem Envelope.reset_inv (p : Params) : Envelope.reset.Inv p :=
  ⟨Nat.zero_le _, Nat.zero_le _, fun _ => rfl⟩

/-- The invariant holds at reset under every value of the parameters. -/
theorem State.resetWith_inv (p : Params) : (State.resetWith p).Inv := by
  refine ⟨⟨⟨?_, ?_⟩, ⟨?_, ?_⟩, ⟨?_, initialWaveRam_wf _, initialWaveRam_inWaveRam _ ?_⟩, ⟨?_, ?_⟩, Nat.zero_le _, ?_⟩,
    Nat.zero_le _⟩
  · exact Channel.reset_inv _ _
  · exact Envelope.reset_inv p
  · exact Channel.reset_inv _ _
  · exact Envelope.reset_inv p
  · exact Channel.reset_inv _ _
  · exact p.waveRamInit.length_toList.le
  · exact Channel.reset_inv _ _
  · exact Envelope.reset_inv p
  · exact ⟨(by decide : 1 ≤ 8192), le_rfl⟩

/-- Settles O12: the reset state is that of the default parameters. -/
theorem resetMeetsTheInvariant : Obligations.ResetMeetsTheInvariant := State.resetWith_inv Params.default

/-! ## Length counters (R33) -/

/-- 10_state R33 for the four channels of a block. -/
abbrev Apu.LengthsInRange (a : Apu) : Prop :=
  a.ch1.lengthCounter ≤ 64 ∧ a.ch2.lengthCounter ≤ 64 ∧ a.ch3.lengthCounter ≤ 256 ∧ a.ch4.lengthCounter ≤ 64

/-- The control write keeps the bound a trigger reloads to. -/
theorem Channel.writeControl_length_le {lenMax : Nat} (reload : Nat) (d : Byte) {c : Channel}
    (h : c.lengthCounter ≤ lenMax) : (c.writeControl lenMax reload d).lengthCounter ≤ lenMax := by
  rw [Channel.writeControl]
  split
  · rw [Channel.trigger]
    dsimp only
    split
    · exact le_rfl
    · exact h
  · exact h

/-- A triggering control write leaves the counter above 0 (40_pulse R131). -/
theorem Channel.writeControl_length_pos {lenMax : Nat} (reload : Nat) {d : Byte} (c : Channel) (hmax : 0 < lenMax)
    (hbit : bit d 7 = true) : 0 < (c.writeControl lenMax reload d).lengthCounter := by
  rw [Channel.writeControl, if_pos hbit, Channel.trigger]
  dsimp only
  split
  · exact hmax
  · next hn => exact Nat.pos_of_ne_zero hn

/-- The length tick of a STEP can only lower a counter. -/
theorem State.lengthTick_length_le (s : State) {c : Channel} {n : Nat} (h : c.lengthCounter ≤ n) :
    (s.lengthTick c).lengthCounter ≤ n := by
  rw [State.lengthTick_eq]
  dsimp only
  split <;> omega

/-- A cycle keeps the length counters in range. -/
theorem cycle_lengthsInRange {s : State} (h : s.apu.LengthsInRange) : (s.apu.cycle s.params).LengthsInRange := by
  obtain ⟨h1, h2, h3, h4⟩ := h
  obtain ⟨hch1, hch2, hch3, hch4⟩ := cycle_channels s.params s.apu
  have hch3' : s.apu.ch3.clockTimer.lengthCounter ≤ 256 := (wave_clockTimer_leaves s.apu.ch3).1 ▸ h3
  refine ⟨?_, (congrArg Channel.lengthCounter hch2).trans_le (s.lengthTick_length_le h2),
    (congrArg Channel.lengthCounter hch3).trans_le (s.lengthTick_length_le hch3'),
    (congrArg Channel.lengthCounter hch4).trans_le (s.lengthTick_length_le h4)⟩
  rcases hch1 with hch1 | hch1
  · exact (congrArg Channel.lengthCounter hch1).trans_le (s.lengthTick_length_le h1)
  · exact (congrArg Channel.lengthCounter hch1).trans_le (s.lengthTick_length_le h1)

/-- Every operation's effect keeps the length counters in range: a load and a trigger write within it. -/
theorem blockEffect_lengthsInRange {s : State} (h : s.apu.LengthsInRange) (i : Instr) :
    (blockEffect s.params i s.apu).LengthsInRange := by
  obtain ⟨h1, h2, h3, h4⟩ := h
  cases i
  case writeNr11 d => exact ⟨(lengthLoad64_range d).2, h2, h3, h4⟩
  case writeNr21 d => exact ⟨h1, (lengthLoad64_range d).2, h3, h4⟩
  case writeNr31 d => exact ⟨h1, h2, (lengthLoad256_range d).2, h4⟩
  case writeNr41 d => exact ⟨h1, h2, h3, (lengthLoad64_range d).2⟩
  case writeNr14 d =>
    refine ⟨?_, h2, h3, h4⟩
    exact (congrArg Channel.lengthCounter (Pulse.writeFrequencyHigh_channel ..)).trans_le
      (Channel.writeControl_length_le _ d h1)
  case writeNr24 d =>
    refine ⟨h1, ?_, h3, h4⟩
    exact (congrArg Channel.lengthCounter (Pulse.writeFrequencyHigh_channel ..)).trans_le
      (Channel.writeControl_length_le _ d h2)
  case writeNr34 d =>
    refine ⟨h1, h2, ?_, h4⟩
    exact (congrArg Channel.lengthCounter (Wave.writeFrequencyHigh_channel ..)).trans_le
      (Channel.writeControl_length_le _ d h3)
  case writeNr44 d =>
    refine ⟨h1, h2, h3, ?_⟩
    exact (congrArg Channel.lengthCounter (Noise.writeControl_channel ..)).trans_le
      (Channel.writeControl_length_le _ d h4)
  case step => exact cycle_lengthsInRange ⟨h1, h2, h3, h4⟩
  all_goals exact ⟨h1, h2, h3, h4⟩

/-- An operation that gives a next state keeps the length counters in range. -/
theorem exec_keeps_lengthsInRange {i : Instr} {s t : State} (h : s.apu.LengthsInRange) (he : exec i s = .next t) :
    t.apu.LengthsInRange := by
  rw [exec_apu he]
  exact blockEffect_lengthsInRange h i

/-- Settles O15: the range is kept by every effect; a trigger and a load write the counters of their own channel. -/
theorem lengthCountersStayInRange : Obligations.LengthCountersStayInRange := by
  refine ⟨fun p => ?_, fun s t h hstep => ?_, fun d s t hbit => ⟨?_, ?_, ?_, ?_⟩, fun d s t => ⟨?_, ?_, ?_, ?_⟩⟩
  · exact ⟨Nat.zero_le _, Nat.zero_le _, Nat.zero_le _, Nat.zero_le _⟩
  · exact step_keeps_of_exec (P := fun _ a => a.LengthsInRange) exec_keeps_lengthsInRange h hstep
  all_goals
    intro h
    rw [exec_apu h]
  · exact (Channel.writeControl_length_pos _ _ (by decide) hbit).trans_eq
      (congrArg Channel.lengthCounter (Pulse.writeFrequencyHigh_channel ..)).symm
  · exact (Channel.writeControl_length_pos _ _ (by decide) hbit).trans_eq
      (congrArg Channel.lengthCounter (Pulse.writeFrequencyHigh_channel ..)).symm
  · exact (Channel.writeControl_length_pos _ _ (by decide) hbit).trans_eq
      (congrArg Channel.lengthCounter (Wave.writeFrequencyHigh_channel ..)).symm
  · exact (Channel.writeControl_length_pos _ _ (by decide) hbit).trans_eq
      (congrArg Channel.lengthCounter (Noise.writeControl_channel ..)).symm
  · exact lengthLoad64_range d
  · exact lengthLoad64_range d
  · exact lengthLoad256_range d
  · exact lengthLoad64_range d

/-! ## Envelope volumes (R34) -/

/-- 10_state R34 for the three envelopes of a block. -/
abbrev Apu.VolumesInRange (a : Apu) : Prop := a.ch1.volume ≤ 15 ∧ a.ch2.volume ≤ 15 ∧ a.ch4.volume ≤ 15

/-- A trigger, where the data byte asks for one, keeps the volume in range: it takes a four-bit field. -/
theorem Envelope.writeControl_volume_le (p : Params) (d : Byte) {e : Envelope} (h : e.volume ≤ 15) :
    (e.writeControl p d).volume ≤ 15 := by
  have := e.volumeInit.isLt
  rw [Envelope.writeControl]
  split
  · rw [Envelope.trigger]
    dsimp only
    omega
  · exact h

/-- A volume step keeps the volume in range. -/
theorem Envelope.stepVolume_volume_le (p : Params) {e : Envelope} (h : e.volume ≤ 15) :
    (e.stepVolume p).volume ≤ 15 := by
  rcases stepVolume_cases p e with ⟨-, -, hv⟩ | ⟨-, hmoves, hv⟩ | ⟨-, -, hv⟩ <;> rw [hv]
  · exact h
  · dsimp only
    split at hmoves
    · next hd => rw [if_pos hd]; omega
    · next hd => rw [if_neg hd]; omega
  · exact h

/-- An envelope's clock keeps the volume in range (40_pulse R133). -/
theorem Envelope.clock_volume_le (p : Params) {e : Envelope} (h : e.volume ≤ 15) : (e.clock p).volume ≤ 15 := by
  rcases envelopeClock_cases p e with ⟨-, hc⟩ | ⟨-, -, hc⟩ | ⟨-, -, hc⟩ <;> rw [hc]
  · exact h
  · exact h
  · exact Envelope.stepVolume_volume_le p h

/-- A cycle keeps the volumes in range. -/
theorem cycle_volumesInRange {a : Apu} (p : Params) (h : a.VolumesInRange) : (a.cycle p).VolumesInRange := by
  obtain ⟨h1, h2, h4⟩ := h
  obtain ⟨⟨henv1, henv2, henv4⟩, -⟩ := cycle_rest p a
  have tick {e : Envelope} (he : e.volume ≤ 15) :
      (if a.fs.period ≤ 1 ∧ a.fs.frame.toNat = 7 then e.clock p else e).volume ≤ 15 := by
    split
    · exact Envelope.clock_volume_le p he
    · exact he
  exact ⟨(congrArg Envelope.volume henv1).trans_le (tick h1), (congrArg Envelope.volume henv2).trans_le (tick h2),
    (congrArg Envelope.volume henv4).trans_le (tick h4)⟩

/-- Every operation's effect keeps the volumes in range: only a trigger and an envelope's clock write one. -/
theorem blockEffect_volumesInRange {a : Apu} (p : Params) (h : a.VolumesInRange) (i : Instr) :
    (blockEffect p i a).VolumesInRange := by
  obtain ⟨h1, h2, h4⟩ := h
  cases i
  case writeNr14 d =>
    refine ⟨?_, h2, h4⟩
    exact (congrArg Envelope.volume (Pulse.writeFrequencyHigh_envelope ..)).trans_le
      (Envelope.writeControl_volume_le p d h1)
  case writeNr24 d =>
    refine ⟨h1, ?_, h4⟩
    exact (congrArg Envelope.volume (Pulse.writeFrequencyHigh_envelope ..)).trans_le
      (Envelope.writeControl_volume_le p d h2)
  case writeNr44 d =>
    refine ⟨h1, h2, ?_⟩
    exact (congrArg Envelope.volume (Noise.writeControl_envelope ..)).trans_le
      (Envelope.writeControl_volume_le p d h4)
  case step => exact cycle_volumesInRange p ⟨h1, h2, h4⟩
  all_goals exact ⟨h1, h2, h4⟩

/-- An operation that gives a next state keeps the volumes in range. -/
theorem exec_keeps_volumesInRange {i : Instr} {s t : State} (h : s.apu.VolumesInRange) (he : exec i s = .next t) :
    t.apu.VolumesInRange := by
  rw [exec_apu he]
  exact blockEffect_volumesInRange s.params h i

/-- Settles O16: the volumes are 0 at reset, and every operation's effect keeps their range. -/
theorem envelopeVolumesStayInRange : Obligations.EnvelopeVolumesStayInRange :=
  ⟨fun _ => ⟨Nat.zero_le _, Nat.zero_le _, Nat.zero_le _⟩,
    fun _ _ h hstep => step_keeps_of_exec (P := fun _ a => a.VolumesInRange) exec_keeps_volumesInRange h hstep⟩

/-! ## Who enables a channel (R35) -/

/-- A control write enables only by a trigger with the DAC on. -/
theorem Channel.enabled_of_writeControl {lenMax reload : Nat} {d : Byte} {c : Channel}
    (h : (c.writeControl lenMax reload d).enabled = true) :
    c.enabled = true ∨ (c.dacEnabled = true ∧ bit d 7 = true) := by
  rw [Channel.writeControl] at h
  split at h
  · next hbit => exact .inr ⟨h, hbit⟩
  · exact .inl h

/-- A DAC write enables no channel. -/
theorem Channel.enabled_of_writeDac {dac : Bool} {c : Channel} (h : (c.writeDac dac).enabled = true) :
    c.enabled = true := by
  rw [Channel.writeDac_eq] at h
  exact (Bool.and_eq_true_iff.1 h).2

/-- The length tick of a STEP enables no channel. -/
theorem Channel.enabled_of_lengthTick {s : State} {c : Channel} (h : (s.lengthTick c).enabled = true) :
    c.enabled = true := by
  rw [State.lengthTick_eq] at h
  exact (Bool.and_eq_true_iff.1 h).1

/-- The operation triggers the channel that this write of NRx4 belongs to, with its DAC on. -/
abbrev TriggeredBy (write : Byte → Instr) (i : Instr) (c : Channel) : Prop :=
  c.dacEnabled = true ∧ ∃ d, i = write d ∧ bit d 7 = true

/-- A channel enabled after a cycle was enabled before it. -/
theorem enabled_of_cycle (s : State) :
    ((s.apu.cycle s.params).ch1.enabled = true → s.apu.ch1.enabled = true)
      ∧ ((s.apu.cycle s.params).ch2.enabled = true → s.apu.ch2.enabled = true)
      ∧ ((s.apu.cycle s.params).ch3.enabled = true → s.apu.ch3.enabled = true)
      ∧ ((s.apu.cycle s.params).ch4.enabled = true → s.apu.ch4.enabled = true) := by
  obtain ⟨-, h2, h3, h4⟩ := cycle_channels s.params s.apu
  obtain ⟨-, -, h1, -⟩ := cycle_sweep s
  obtain ⟨-, henabled3, -⟩ := wave_clockTimer_leaves s.apu.ch3
  refine ⟨fun h => ?_, fun h => ?_, fun h => ?_, fun h => ?_⟩
  · rw [h1, Bool.and_eq_true_iff] at h
    exact Channel.enabled_of_lengthTick (c := s.apu.ch1.clockTimer.toChannel) h.1
  · exact Channel.enabled_of_lengthTick (c := s.apu.ch2.clockTimer.toChannel) (h2 ▸ h)
  · exact henabled3.symm.trans (Channel.enabled_of_lengthTick (c := s.apu.ch3.clockTimer.toChannel) (h3 ▸ h))
  · exact Channel.enabled_of_lengthTick (c := (s.apu.ch4.clockTimer s.params).toChannel) (h4 ▸ h)

/-- A channel enabled after an operation was enabled before it, or was triggered by it with its DAC on. -/
theorem enabled_of_blockEffect (s : State) (i : Instr) :
    ((blockEffect s.params i s.apu).ch1.enabled = true →
        s.apu.ch1.enabled = true ∨ TriggeredBy .writeNr14 i s.apu.ch1.toChannel)
      ∧ ((blockEffect s.params i s.apu).ch2.enabled = true →
        s.apu.ch2.enabled = true ∨ TriggeredBy .writeNr24 i s.apu.ch2.toChannel)
      ∧ ((blockEffect s.params i s.apu).ch3.enabled = true →
        s.apu.ch3.enabled = true ∨ TriggeredBy .writeNr34 i s.apu.ch3.toChannel)
      ∧ ((blockEffect s.params i s.apu).ch4.enabled = true →
        s.apu.ch4.enabled = true ∨ TriggeredBy .writeNr44 i s.apu.ch4.toChannel) := by
  have control {write : Byte → Instr} {lenMax reload : Nat} {d : Byte} {c : Channel} {b : Bool}
      (hb : b = (c.writeControl lenMax reload d).enabled) (h : b = true) :
      c.enabled = true ∨ TriggeredBy write (write d) c :=
    (Channel.enabled_of_writeControl (hb ▸ h)).imp_right fun ⟨hdac, hbit⟩ => ⟨hdac, d, rfl, hbit⟩
  cases i
  case writeNr12 d => exact ⟨fun h => .inl (Channel.enabled_of_writeDac h), .inl, .inl, .inl⟩
  case writeNr22 d => exact ⟨.inl, fun h => .inl (Channel.enabled_of_writeDac h), .inl, .inl⟩
  case writeNr30 d => exact ⟨.inl, .inl, fun h => .inl (Channel.enabled_of_writeDac h), .inl⟩
  case writeNr42 d => exact ⟨.inl, .inl, .inl, fun h => .inl (Channel.enabled_of_writeDac h)⟩
  case writeNr14 d =>
    exact ⟨control (congrArg Channel.enabled (Pulse.writeFrequencyHigh_channel s.params d _)), .inl, .inl, .inl⟩
  case writeNr24 d =>
    exact ⟨.inl, control (congrArg Channel.enabled (Pulse.writeFrequencyHigh_channel s.params d _)), .inl, .inl⟩
  case writeNr34 d =>
    exact ⟨.inl, .inl, control (congrArg Channel.enabled (Wave.writeFrequencyHigh_channel d _)), .inl⟩
  case writeNr44 d =>
    exact ⟨.inl, .inl, .inl, control (congrArg Channel.enabled (Noise.writeControl_channel s.params d _))⟩
  case step =>
    obtain ⟨h1, h2, h3, h4⟩ := enabled_of_cycle s
    exact ⟨fun h => .inl (h1 h), fun h => .inl (h2 h), fun h => .inl (h3 h), fun h => .inl (h4 h)⟩
  all_goals exact ⟨.inl, .inl, .inl, .inl⟩

/-- Settles O19: a channel that was not enabled before was triggered. -/
theorem onlyATriggerEnablesAChannel : Obligations.OnlyATriggerEnablesAChannel := by
  intro i s t h
  obtain ⟨h1, h2, h3, h4⟩ := enabled_of_blockEffect s i
  rw [exec_apu h]
  refine ⟨fun hoff hon => (h1 hon).resolve_left ?_, fun hoff hon => (h2 hon).resolve_left ?_,
    fun hoff hon => (h3 hon).resolve_left ?_, fun hoff hon => (h4 hon).resolve_left ?_⟩
  all_goals exact Bool.eq_false_iff.1 hoff

/-! ## The wave RAM and the sample buffer (R63, 20_memory R78) -/

/-- Settles O20: only WRITE WAVEi stores, and a store leaves every other byte. -/
theorem onlyWriteWaveChangesTheWaveRam : Obligations.OnlyWriteWaveChangesTheWaveRam := by
  intro i s t a h hother
  rw [exec_apu h]
  cases i
  case writeWave j d => exact Memory.read_write_other _ d (hother j d rfl)
  case writeNr34 d => exact congrArg (Memory.read · a) (Wave.writeFrequencyHigh_leaves d _).1
  case step =>
    obtain ⟨-, -, ⟨-, hram, -⟩, -⟩ := cycle_rest s.params s.apu
    obtain ⟨-, -, -, -, hram3, -⟩ := wave_clockTimer_leaves s.apu.ch3
    exact congrArg (Memory.read · a) (hram.trans hram3)
  all_goals rfl

/-- No operation but STEP writes the sample buffer. -/
theorem blockEffect_sampleBuffer {i : Instr} (hi : i ≠ .step) (p : Params) (a : Apu) :
    (blockEffect p i a).ch3.sampleBuffer = a.ch3.sampleBuffer := by
  cases i
  case writeNr34 d => exact (Wave.writeFrequencyHigh_leaves d _).2
  case step => exact absurd rfl hi
  all_goals rfl

/-- Settles O21: an operation other than STEP leaves the buffer; a STEP by the two cases of channel 3's timer. -/
theorem sampleBufferChangesOnlyAtTimerExpiry : Obligations.SampleBufferChangesOnlyAtTimerExpiry := by
  intro i s t h
  by_cases hi : i = .step
  · subst hi
    obtain ⟨hcounts, hexpires⟩ := stepClocksTheWaveTimer.1 s t h
    refine ⟨fun hn => absurd rfl hn, fun hp => ?_, fun _ hp => ?_⟩
    · obtain ⟨-, -, hbuffer⟩ := hcounts hp
      exact hbuffer
    · obtain ⟨-, -, hbuffer⟩ := hexpires hp
      exact hbuffer
  · have hbuffer : t.apu.ch3.sampleBuffer = s.apu.ch3.sampleBuffer := by
      rw [exec_apu h, blockEffect_sampleBuffer hi]
    exact ⟨fun _ => hbuffer, fun _ => hbuffer, fun hstep => absurd hstep hi⟩

end Sys2Proof.Machine

/-! Every outcome of an operation, said once (60_exceptions R280-R286): in a running state it stops for the one cause
`stopOf` names, or completes with its effect (`exec_eq_outcome`); in a marked state it stops as the mark says. From it: the
power gate, the accesses outside the window, the causes of the stops, and which operations read the frame sequencer. -/

namespace Sys2Proof.Machine

/-! ## Marked states (R280) -/

/-- Every operation is performed: its effect runs in an unmarked state alone. -/
theorem exec_eq_perform (i : Instr) : ∃ f, ∀ s, exec i s = perform f s := by
  cases i <;> exact ⟨_, fun _ => rfl⟩

/-- Settles O8: an operation is performed and the step settles first, and both answer a mark. -/
theorem markedStateHasNoStep : Obligations.MarkedStateHasNoStep := by
  intro i s
  obtain ⟨f, hexec⟩ := exec_eq_perform i
  constructor
  · intro r hfault
    refine ⟨(hexec s).trans (perform_fault hfault), ?_⟩
    rw [step, issueNext, settle_fault_iff.2 hfault]
  · intro r hfault hrefusal
    refine ⟨(hexec s).trans (perform_refused hfault hrefusal), ?_⟩
    rw [step, issueNext, settle_refused_iff.2 ⟨hfault, hrefusal⟩]

/-! ## The cause of a stop -/

/-- The operation is a WRITE that the power gate refuses in `s` (44_mixer R261). -/
abbrev State.Gates (s : State) (i : Instr) : Prop :=
  IsWrite i ∧ s.params.powerOff = .refuse ∧ s.apu.power = false ∧ i.addr?.any powerGated = true

/-- Why an operation stops in a running state, where it does: the sweep overflow of STEP (R282), the two accesses outside
the window (R281), the power-off write and the gate (R284). -/
def stopOf (i : Instr) (s : State) : Option (Fault ⊕ Refusal) :=
  match i with
  | .step => if s.SweepOverflows ∧ s.params.sweepOverflow = .fault then some (.inl (.sweepOverflow s.sweepSum)) else none
  | .writeOutOfWindow a _ => if s.params.busRange = .fault then some (.inl (.busRange a)) else none
  | .readOutOfWindow a => if s.params.busRange = .fault then some (.inl (.busRange a)) else none
  | .writeNr52 d =>
    if s.params.powerOff = .refuse ∧ powerField d = false then some (.inr (.powerOffUnmodelled (encode (.writeNr52 d))))
    else none
  | i => if s.Gates i then some (.inr (.powerOffUnmodelled (encode i))) else none

/-- The outcome of a stop, or of an operation that completes with `t`. -/
def outcomeOf (stop : Option (Fault ⊕ Refusal)) (t : State) : Host.Outcome State Fault Refusal :=
  match stop with
  | none => .next t
  | some (.inl r) => .fault r
  | some (.inr r) => .refused r

theorem outcomeOf_next_iff {stop : Option (Fault ⊕ Refusal)} {t u : State} :
    outcomeOf stop t = .next u ↔ stop = none ∧ t = u := by
  rcases stop with _ | r | r <;> simp [outcomeOf]

theorem outcomeOf_fault_iff {stop : Option (Fault ⊕ Refusal)} {t : State} {r : Fault} :
    outcomeOf stop t = .fault r ↔ stop = some (.inl r) := by
  rcases stop with _ | r | r <;> simp [outcomeOf]

theorem outcomeOf_refused_iff {stop : Option (Fault ⊕ Refusal)} {t : State} {r : Refusal} :
    outcomeOf stop t = .refused r ↔ stop = some (.inr r) := by
  rcases stop with _ | r | r <;> simp [outcomeOf]

/-! ## The outcome of every operation -/

/-- A WRITE of the window with no stop of its own: the gate refuses it, or it has its effect. -/
theorem exec_gatedWrite {i : Instr} {a : Addr} {s : State} (hs : s.Running) (hw : IsWrite i) (ha : i.addr? = some a)
    (hexec : exec i s = perform (writeByte (encode i) a fun p => blockEffect p i) s)
    (hstop : stopOf i s = if s.Gates i then some (.inr (.powerOffUnmodelled (encode i))) else none)
    (heffect : effect i s = s.onApu fun p => blockEffect p i) (hrun : (effect i s).Running) :
    exec i s = outcomeOf (stopOf i s) (effect i s) := by
  have hany : i.addr?.any powerGated = powerGated a := by rw [ha]; rfl
  rw [hexec, hstop, perform_running hs]
  rcases writeByte_cases (encode i) a (fun p => blockEffect p i) s with ⟨hpolicy, hpower, hgate, h⟩ | ⟨hopen, h⟩
  · rw [if_pos ⟨hw, hpolicy, hpower, hany.trans hgate⟩, h]
    exact settle_refused_iff.2 ⟨hs.1, rfl⟩
  · rw [if_neg fun ⟨_, hpolicy, hpower, hgate⟩ => hopen ⟨hpolicy, hpower, hany.symm.trans hgate⟩, h, ← heffect]
    exact settle_running hrun

/-- A READ of the window or SAMPLE completes: no gate covers it. -/
theorem exec_ungated {i : Instr} {s : State} (hs : s.Running) (hw : ¬ IsWrite i)
    (hexec : exec i s = perform (effect i) s)
    (hstop : stopOf i s = if s.Gates i then some (.inr (.powerOffUnmodelled (encode i))) else none)
    (hrun : (effect i s).Running) : exec i s = outcomeOf (stopOf i s) (effect i s) := by
  rw [hexec, hstop, perform_running hs, if_neg fun h => hw h.1]
  exact settle_running hrun

/-- A word whose operation bits are not 01 is no WRITE's. -/
theorem not_isWrite {i : Instr} {op : BitVec 2} {z : BitVec 6} {a : Addr} {d : Byte} (h : encode i = mkWord op z a d)
    (hop : op ≠ 0b01#2) : ¬ IsWrite i := by
  rw [IsWrite, h, opField_mkWord]
  exact hop

/-- In a running state an operation stops for its cause, or completes with its effect. -/
theorem exec_eq_outcome (i : Instr) {s : State} (hs : s.Running) : exec i s = outcomeOf (stopOf i s) (effect i s) := by
  cases i
  case step =>
    rcases exec_step_cases hs with ⟨hover, hpolicy, h⟩ | ⟨hn, h⟩
    · rw [h, stopOf, if_pos ⟨hover, hpolicy⟩]; rfl
    · rw [h, stopOf, if_neg hn]; rfl
  case writeOutOfWindow a d =>
    rw [exec, execWriteOutOfWindow, perform_running hs]
    rcases outOfWindow_cases a id s with ⟨hpolicy, h⟩ | ⟨hpolicy, h⟩ <;> rw [h, stopOf, hpolicy]
    · exact settle_fault_iff.2 rfl
    · exact settle_running hs
  case readOutOfWindow a =>
    rw [exec, execReadOutOfWindow, perform_running hs]
    rcases outOfWindow_cases a deliverFree s with ⟨hpolicy, h⟩ | ⟨hpolicy, h⟩ <;> rw [h, stopOf, hpolicy]
    · exact settle_fault_iff.2 rfl
    · exact settle_running hs
  case writeNr52 d =>
    rw [exec, execWriteNr52, perform_running hs, writeByte_ungated (by decide), stopOf]
    by_cases hoff : s.params.powerOff = .refuse ∧ powerField d = false
    · simp only [State.onApu, hoff]
      exact settle_refused_iff.2 ⟨hs.1, rfl⟩
    · simp only [State.onApu, hoff, if_false]
      exact settle_running hs
  case readNr10 | readNr11 | readNr12 | readNr13 | readNr14 | readNr21 | readNr22 | readNr23 | readNr24 | readNr30
    | readNr31 | readNr32 | readNr33 | readNr34 | readNr41 | readNr42 | readNr43 | readNr44 | readNr50 | readNr51
    | readNr52 | readWave | readUnusedFf15 | readUnusedFf1f | readUnusedFf27 | readUnusedFf28To2f | sample =>
    exact exec_ungated hs (not_isWrite rfl (by decide)) rfl rfl hs
  all_goals exact exec_gatedWrite hs (opField_mkWord ..) rfl rfl rfl rfl hs

/-- What an operation that completes says: the state is running, there is no cause to stop, and the effect is the next
state. -/
theorem exec_next_iff {i : Instr} {s t : State} :
    exec i s = .next t ↔ s.Running ∧ stopOf i s = none ∧ effect i s = t := by
  constructor
  · intro h
    obtain ⟨hs, -⟩ := exec_next h
    exact ⟨hs, outcomeOf_next_iff.1 ((exec_eq_outcome i hs).symm.trans h)⟩
  · rintro ⟨hs, hstop, heffect⟩
    rw [exec_eq_outcome i hs, hstop, heffect]
    rfl

/-! ## The refusals (R284) -/

/-- The gate's test of an operation's address, in the spec's range (44_mixer R261). -/
theorem any_powerGated_iff (i : Instr) :
    i.addr?.any powerGated = true ↔ ∃ a, i.addr? = some a ∧ 0xFF10 ≤ a.toNat ∧ a.toNat ≤ 0xFF25 := by
  simp only [Option.any_eq_true, powerGated, Bool.and_eq_true, decide_eq_true_eq]

/-- The causes of a stop, and what it records. -/
theorem stopOf_some {i : Instr} {s : State} {c : Fault ⊕ Refusal} (h : stopOf i s = some c) :
    (i = .step ∧ s.SweepOverflows ∧ s.params.sweepOverflow = .fault ∧ c = .inl (.sweepOverflow s.sweepSum))
      ∨ (∃ a, ((∃ d, i = .writeOutOfWindow a d) ∨ i = .readOutOfWindow a) ∧ s.params.busRange = .fault
        ∧ c = .inl (.busRange a))
      ∨ (s.params.powerOff = .refuse ∧ (s.Gates i ∨ ∃ d, i = .writeNr52 d ∧ powerField d = false)
        ∧ c = .inr (.powerOffUnmodelled (encode i))) := by
  unfold stopOf at h
  split at h <;> obtain ⟨hcause, hc⟩ := Option.ite_none_right_eq_some.1 h <;> cases hc
  · exact .inl ⟨rfl, hcause.1, hcause.2, rfl⟩
  · exact .inr (.inl ⟨_, .inl ⟨_, rfl⟩, hcause, rfl⟩)
  · exact .inr (.inl ⟨_, .inr rfl, hcause, rfl⟩)
  · exact .inr (.inr ⟨hcause.1, .inr ⟨_, rfl, hcause.2⟩, rfl⟩)
  · exact .inr (.inr ⟨hcause.2.1, .inl hcause, rfl⟩)

/-- A WRITE that the gate refuses, and a power-off write of NR52, stop; the gate covers no operation of another cause. -/
theorem stopOf_of_refused {i : Instr} {s : State} (hw : i.WellFormed) (hpolicy : s.params.powerOff = .refuse)
    (h : s.Gates i ∨ ∃ d, i = .writeNr52 d ∧ powerField d = false) :
    stopOf i s = some (.inr (.powerOffUnmodelled (encode i))) := by
  rcases h with hgate | ⟨d, rfl, hd⟩
  · obtain ⟨a, ha, hlow, hhigh⟩ := (any_powerGated_iff i).1 hgate.2.2.2
    unfold stopOf
    split
    case h_1 => cases ha
    case h_2 b d =>
      cases ha
      have hout := not_inWindow_iff.1 (Bool.not_eq_eq_eq_not.1 hw)
      omega
    case h_3 b => exact absurd hgate.1 (not_isWrite rfl (by decide))
    case h_4 d =>
      cases ha
      exact absurd hhigh (by decide)
    case h_5 => exact if_pos hgate
  · exact if_pos ⟨hpolicy, hd⟩

/-- Settles O58: the cause of a refusal, and that each cause refuses. -/
theorem powerGateRefusesExactlyTheseWrites : Obligations.PowerGateRefusesExactlyTheseWrites := by
  intro i s w hs hw
  rw [exec_eq_outcome i hs, outcomeOf_refused_iff]
  constructor
  · intro h
    obtain ⟨-, -, -, hc⟩ | ⟨a, -, -, hc⟩ | ⟨hpolicy, hcause, hc⟩ := stopOf_some h <;> cases hc
    rcases hcause with ⟨hwrite, -, hpower, hgate⟩ | ⟨d, rfl, hd⟩
    · exact ⟨hpolicy, rfl, hwrite, .inl ⟨hpower, (any_powerGated_iff i).1 hgate⟩⟩
    · exact ⟨hpolicy, rfl, opField_mkWord .., .inr ⟨d, rfl, powerField_eq d ▸ hd⟩⟩
  · rintro ⟨hpolicy, rfl, hwrite, ⟨hpower, hgate⟩ | ⟨d, rfl, hd⟩⟩
    · exact stopOf_of_refused hw hpolicy (.inl ⟨hwrite, hpolicy, hpower, (any_powerGated_iff i).2 hgate⟩)
    · exact stopOf_of_refused hw hpolicy (.inr ⟨d, rfl, (powerField_eq d).trans hd⟩)

/-! ## The faults (R281, R282) -/

/-- Settles O59: the policy decides between the stop and the effect. -/
theorem outOfWindowFaultsOrIsIgnored : Obligations.OutOfWindowFaultsOrIsIgnored := by
  intro a d s hs
  rw [exec_eq_outcome _ hs, exec_eq_outcome _ hs, stopOf, stopOf]
  constructor
  · intro hpolicy
    rw [hpolicy]
    exact ⟨rfl, rfl⟩
  · intro hpolicy
    rw [hpolicy]
    exact ⟨rfl, rfl⟩

/-- A sweep that overflows adds: a subtraction stays in range (40_pulse R134). -/
theorem adds_of_overflow {s : State} (h : 2047 < s.sweepSum) : s.apu.sweep.sweepDirection = false := by
  cases hd : s.apu.sweep.sweepDirection
  · rfl
  · have hle := sweepTarget_sub_le hd s.apu.ch1.frequency
    rw [sweepTarget_eq] at hle
    omega

/-- Settles O60: each stop is of the one cause that records it. -/
theorem everyStopHasItsCause : Obligations.EveryStopHasItsCause := by
  intro i s hs
  rw [exec_eq_outcome i hs]
  refine ⟨fun nf h => ?_, fun a h => ?_, fun r h => ?_⟩
  · obtain ⟨rfl, hover, hpolicy, hc⟩ | ⟨a, -, -, hc⟩ | ⟨-, -, hc⟩ := stopOf_some (outcomeOf_fault_iff.1 h) <;> cases hc
    exact ⟨rfl, hpolicy, hover.1, adds_of_overflow hover.2, rfl, hover.2⟩
  · obtain ⟨-, -, -, hc⟩ | ⟨a, hi, hpolicy, hc⟩ | ⟨-, -, hc⟩ := stopOf_some (outcomeOf_fault_iff.1 h) <;> cases hc
    exact ⟨hpolicy, hi⟩
  · obtain ⟨-, -, -, hc⟩ | ⟨a, -, -, hc⟩ | ⟨hpolicy, -, hc⟩ := stopOf_some (outcomeOf_refused_iff.1 h) <;> cases hc
    exact ⟨rfl, hpolicy⟩

/-! ## Who reads the frame sequencer (43_frame_sequencer R230) -/

/-- `s` with the frame sequencer `v`. -/
def State.withFs (v : FrameSequencer) (s : State) : State := { s with apu := { s.apu with fs := v } }

/-- Whether an operation other than STEP stops does not depend on the frame sequencer. -/
theorem stopOf_withFs {i : Instr} (hi : i ≠ .step) (v : FrameSequencer) (s : State) :
    stopOf i (s.withFs v) = stopOf i s := by
  cases i
  case step => exact absurd rfl hi
  all_goals rfl

/-- The effect of an operation other than STEP neither reads nor writes the frame sequencer. -/
theorem effect_withFs {i : Instr} (hi : i ≠ .step) (v : FrameSequencer) (s : State) :
    effect i (s.withFs v) = (effect i s).withFs v := by
  cases i
  case step => exact absurd rfl hi
  all_goals rfl

/-- An operation other than STEP leaves the frame sequencer. -/
theorem blockEffect_fs {i : Instr} (hi : i ≠ .step) (p : Params) (a : Apu) : (blockEffect p i a).fs = a.fs := by
  cases i
  case step => exact absurd rfl hi
  all_goals rfl

/-- Settles O18: neither the cause of a stop nor the effect reads the frame sequencer, but for STEP's. -/
theorem onlyStepMovesTheFrameSequencer : Obligations.OnlyStepMovesTheFrameSequencer := by
  intro i s t h
  refine ⟨fun hi => ?_, fun hi => ?_, fun hi v => ?_⟩
  · rw [exec_apu h, blockEffect_fs hi]
  · subst hi
    rw [exec_step_fs h]
    split <;> rfl
  · obtain ⟨hs, hstop, rfl⟩ := exec_next_iff.1 h
    exact exec_next_iff.2 ⟨hs, (stopOf_withFs hi v s).trans hstop, effect_withFs hi v s⟩

end Sys2Proof.Machine

/-! The step over one word (10_state R21), READs (20_memory R70, 30_encoding R92) and repeated WRITEs (20_memory R69). -/

namespace Sys2Proof.Machine

/-! ## The step over the word at the host's position -/

/-- In a running state the step issues the word at the host's position. -/
theorem step_eq_issueWord {s : State} {w : Word} (hs : s.Running) (hfetch : s.host.program[s.host.position]? = some w) :
    step s = issueWord w s := by
  simp only [step, issueNext, settle_running hs, fetchWord, hfetch]

/-- Settles O6: the step issues the word, which decodes to the operation. -/
theorem stepRunsTheDecodedOperation : Obligations.StepRunsTheDecodedOperation := by
  intro s w i hs hfetch hdecode
  rw [step_eq_issueWord hs hfetch, issueWord, hdecode]
  dsimp only
  cases exec i s <;> rfl

/-- A word with the verdict `invalid` does not decode. -/
theorem decode_of_invalid {w : Word} {e : DecodeError} (h : verdict w = .invalid e) : decode w = .error e := by
  unfold verdict at h
  split at h
  · next hdecode => cases h; exact hdecode
  · split at h
    · split at h <;> cases h
    · cases h

/-- Settles O7: the step issues the word, and issuing it records the refusal. -/
theorem invalidWordIsRefused : Obligations.InvalidWordIsRefused := by
  intro s w e hs hfetch hverdict
  rw [step_eq_issueWord hs hfetch, issueWord, decode_of_invalid hverdict]
  exact (perform_running hs).trans (settle_refused_iff.2 ⟨hs.1, rfl⟩)

/-! ## READs -/

/-- Settles O22: a READ hands over its reply, which reads the block and the parameters alone. -/
theorem readsChangeNoState : Obligations.ReadsChangeNoState := by
  intro i a s hs hw hread ha hin
  obtain ⟨n, hreply⟩ := readReply_of_read s hw hread ha hin
  have hagain := (readReply_congr (t := deliver (.byte (n ||| readMaskAt s.params a)) s) i rfl rfl).trans hreply
  exact ⟨_, _, exec_read hs hreply, rfl, _, exec_read hs hagain, rfl⟩

/-- The mask of the address `0xFF10 + k` is element `k` of the table. -/
theorem readMaskAt_eq {a : Addr} {k : Fin 48} (p : Params) (h : a.toNat = 0xFF10 + k.val) :
    readMaskAt p a = p.readMask[k] := by
  have hk : a.toNat - 0xFF10 = k.val := by omega
  rw [readMaskAt, hk, Vector.getElem?_eq_getElem k.isLt]
  rfl

/-- Settles O55: the reply is a value with the mask or-ed in. -/
theorem maskBitsReadOne : Obligations.MaskBitsReadOne := by
  intro i a s hs hw hread ha hin
  obtain ⟨n, hreply⟩ := readReply_of_read s hw hread ha hin
  refine ⟨_, ⟨_, exec_read hs hreply, rfl⟩, fun k hk => ?_⟩
  rw [readMaskAt_eq s.params hk, BitVec.or_assoc, BitVec.or_self]

/-! ## Repeated WRITEs -/

/-- A second write of the low frequency bits changes nothing. -/
theorem frequencyLow_again (f : BitVec 11) (d : Byte) : frequencyLow (frequencyLow f d) d = frequencyLow f d := by
  have hf := f.isLt
  have hd := d.isLt
  apply BitVec.eq_of_toNat_eq
  simp only [frequencyLow_eq, BitVec.toNat_ofNat]
  omega

/-- A second write of the high frequency bits changes nothing. -/
theorem frequencyHigh_again (f : BitVec 11) (d : Byte) : frequencyHigh (frequencyHigh f d) d = frequencyHigh f d := by
  have hb := bits_lt d 2 0
  apply BitVec.eq_of_toNat_eq
  simp only [frequencyHigh_eq, BitVec.toNat_ofNat]
  omega

/-- A second DAC write changes nothing. -/
theorem Channel.writeDac_again (dac : Bool) (c : Channel) : (c.writeDac dac).writeDac dac = c.writeDac dac := by
  cases dac <;> rfl

/-- A second write of NR14 or NR24 without bit 7 changes nothing. -/
theorem Pulse.writeFrequencyHigh_again {d : Byte} (h : bit d 7 = false) (p : Params) (c : Pulse) :
    (c.writeFrequencyHigh p d).writeFrequencyHigh p d = c.writeFrequencyHigh p d := by
  simp only [Pulse.writeFrequencyHigh_noTrigger h, frequencyHigh_again]

/-- A second write of NR34 without bit 7 changes nothing. -/
theorem Wave.writeFrequencyHigh_again {d : Byte} (h : bit d 7 = false) (c : Wave) :
    (c.writeFrequencyHigh d).writeFrequencyHigh d = c.writeFrequencyHigh d := by
  simp only [Wave.writeFrequencyHigh_noTrigger h, frequencyHigh_again]

/-- A second write of NR44 without bit 7 changes nothing. -/
theorem Noise.writeControl_again {d : Byte} (h : bit d 7 = false) (p : Params) (c : Noise) :
    (c.writeControl p d).writeControl p d = c.writeControl p d := by
  simp only [Noise.writeControl_noTrigger h]

/-- A second store of the same byte changes nothing of a memory in canonical form. -/
theorem Memory.write_again {m : Memory} (a : Nat) (v : Byte) (h : Memory.wf m = true) :
    Memory.write (Memory.write m a v) a v = Memory.write m a v := by
  have hwf := Memory.wf_write a v h
  refine Memory.ext_of_wf (Memory.wf_write a v hwf) hwf fun b => ?_
  by_cases hb : b = a
  · rw [hb, Memory.read_write_self _ _ _ hwf, Memory.read_write_self _ _ _ h]
  · exact Memory.read_write_other _ v hb

/-- A second write of NR12 or NR22 changes nothing. -/
theorem Pulse.writeEnvelope_again (d : Byte) (c : Pulse) :
    (c.writeEnvelope d).writeEnvelope d = c.writeEnvelope d := by
  simp only [Pulse.writeEnvelope, Channel.writeDac_again]
  rfl

/-- A second write of NR42 changes nothing. -/
theorem Noise.writeEnvelope_again (d : Byte) (c : Noise) :
    (c.writeEnvelope d).writeEnvelope d = c.writeEnvelope d := by
  simp only [Noise.writeEnvelope, Channel.writeDac_again]
  rfl

/-- A second WRITE that triggers no channel changes nothing of the block. -/
theorem blockEffect_again {i : Instr} {a : Apu} (p : Params) (hw : IsWrite i) (ht : triggersChannel i = false)
    (hwf : Memory.wf a.ch3.waveRam = true) : blockEffect p i (blockEffect p i a) = blockEffect p i a := by
  have noTrigger {d : Byte} (h : d.getLsbD 7 = false) : bit d 7 = false := (getLsbD_eq_bit d 7).symm.trans h
  cases i
  case writeNr12 d => exact congrArg (fun c => { a with ch1 := c }) (Pulse.writeEnvelope_again d a.ch1)
  case writeNr22 d => exact congrArg (fun c => { a with ch2 := c }) (Pulse.writeEnvelope_again d a.ch2)
  case writeNr42 d => exact congrArg (fun c => { a with ch4 := c }) (Noise.writeEnvelope_again d a.ch4)
  case writeNr30 d =>
    exact congrArg (fun c => { a with ch3 := { a.ch3 with toChannel := c } })
      (Channel.writeDac_again (waveDacField d) a.ch3.toChannel)
  case writeNr13 d =>
    exact congrArg (fun f => { a with ch1 := { a.ch1 with frequency := f } }) (frequencyLow_again a.ch1.frequency d)
  case writeNr23 d =>
    exact congrArg (fun f => { a with ch2 := { a.ch2 with frequency := f } }) (frequencyLow_again a.ch2.frequency d)
  case writeNr33 d =>
    exact congrArg (fun f => { a with ch3 := { a.ch3 with frequency := f } }) (frequencyLow_again a.ch3.frequency d)
  case writeNr14 d =>
    exact congrArg (fun c => { a with ch1 := c }) (Pulse.writeFrequencyHigh_again (noTrigger ht) p a.ch1)
  case writeNr24 d =>
    exact congrArg (fun c => { a with ch2 := c }) (Pulse.writeFrequencyHigh_again (noTrigger ht) p a.ch2)
  case writeNr34 d =>
    exact congrArg (fun c => { a with ch3 := c }) (Wave.writeFrequencyHigh_again (noTrigger ht) a.ch3)
  case writeNr44 d =>
    exact congrArg (fun c => { a with ch4 := c }) (Noise.writeControl_again (noTrigger ht) p a.ch4)
  case writeWave k d =>
    exact congrArg (fun m => { a with ch3 := { a.ch3 with waveRam := m } }) (Memory.write_again (waveAddr k) d hwf)
  case step => exact absurd hw (by decide)
  all_goals rfl

/-- A WRITE does nothing to the host. -/
theorem hostEffect_write {i : Instr} (hw : IsWrite i) (s : State) : hostEffect i s = s.host := by
  have notRead {j : Instr} {op : BitVec 2} {a : Addr} {d : Byte} (hj : encode j = mkWord op 0#6 a d) (hop : op ≠ 0b01#2)
      (h : IsWrite j) : hostEffect j s = s.host := absurd h (not_isWrite hj hop)
  cases i
  case readNr10 | readNr11 | readNr12 | readNr13 | readNr14 | readNr21 | readNr22 | readNr23 | readNr24 | readNr30
    | readNr31 | readNr32 | readNr33 | readNr34 | readNr41 | readNr42 | readNr43 | readNr44 | readNr50 | readNr51
    | readNr52 | readWave | readUnusedFf15 | readUnusedFf1f | readUnusedFf27 | readUnusedFf28To2f | readOutOfWindow
    | sample =>
    exact notRead rfl (by decide) hw
  all_goals rfl

/-- A WRITE leaves what its own stop depends on. -/
theorem stopOf_again {i : Instr} {s : State} (hw : IsWrite i) : stopOf i (effect i s) = stopOf i s := by
  cases i
  case step => exact absurd hw (by decide)
  all_goals rfl

/-- Settles O57: the second WRITE has no cause to stop either, and its effect changes nothing. -/
theorem nonTriggerWritesAreIdempotent : Obligations.NonTriggerWritesAreIdempotent := by
  intro i s t hw ht hwf h
  obtain ⟨hs, hstop, rfl⟩ := exec_next_iff.1 h
  obtain ⟨-, -, hrun⟩ := exec_next h
  refine exec_next_iff.2 ⟨hrun, (stopOf_again hw).trans hstop, ?_⟩
  simp only [effect, hostEffect_write hw, blockEffect_again s.params hw ht hwf]

end Sys2Proof.Machine

/-! What an accepted WRITE of each register sets (40_pulse, 41_wave, 42_noise, 44_mixer_control), and what a READ of the
same address then hands over (20_memory R75). An accepted WRITE completes with its effect (`exec_accepted`), so each
statement is about the effect alone. -/

namespace Sys2Proof.Machine

/-! ## Accepted WRITEs -/

/-- With the power gate open an operation that only the gate could stop completes with its effect. -/
theorem exec_accepted {i : Instr} {s : State} (hs : s.Running) (ha : s.AcceptsWrites)
    (hstop : stopOf i s = if s.Gates i then some (.inr (.powerOffUnmodelled (encode i))) else none) :
    exec i s = .next (effect i s) := by
  refine exec_next_iff.2 ⟨hs, hstop.trans (if_neg ?_), rfl⟩
  rintro ⟨-, hpolicy, hpower, -⟩
  rcases ha with ha | ha
  · exact absurd (hpolicy.symm.trans ha) (by decide)
  · exact absurd (hpower.symm.trans ha) (by decide)

/-- A WRITE of an address the power gate does not cover completes with its effect, whatever the power bit holds. -/
theorem exec_uncovered {i : Instr} {a : Addr} {s : State} (hs : s.Running) (ha : i.addr? = some a)
    (hstop : stopOf i s = if s.Gates i then some (.inr (.powerOffUnmodelled (encode i))) else none)
    (hhigh : 0xFF25 < a.toNat) : exec i s = .next (effect i s) := by
  refine exec_next_iff.2 ⟨hs, hstop.trans (if_neg ?_), rfl⟩
  rintro ⟨-, -, -, hgate⟩
  obtain ⟨b, hb, -, hle⟩ := (any_powerGated_iff i).1 hgate
  cases ha.symm.trans hb
  omega

/-! ## The pulse channels (40_pulse) -/

/-- The sweep fields of a data byte, in the spec's terms (R110). -/
theorem Sweep.write_eq (d : Byte) (w : Sweep) :
    w.write d = { w with
      sweepTime := BitVec.ofNat 3 (bits d 6 4)
      sweepDirection := bit d 3
      sweepShifts := BitVec.ofNat 3 (bits d 2 0) } := by
  rw [Sweep.write, sweepTimeField_eq, sweepDirectionField_eq, sweepShiftsField_eq]

/-- Settles O23: the write's effect in the spec's fields; a sweep tick with a sweep time of 0 is the first case of the
sweep's clock. -/
theorem writeNr10SetsTheSweep : Obligations.WriteNr10SetsTheSweep := by
  refine ⟨fun d s hs ha => ?_, writeWord_toNat _, fun p a h0 => ?_⟩
  · rw [exec_accepted hs ha rfl, ← Sweep.write_eq]
    rfl
  · obtain ⟨-, h⟩ | ⟨hn, -⟩ | ⟨hn, -⟩ := clockSweep_cases p a
    · exact h
    · exact absurd h0 hn
    · exact absurd h0 hn

/-- The envelope fields of a data byte, in the spec's terms (R128). -/
theorem Envelope.setFields_eq (d : Byte) (e : Envelope) :
    e.setFields d = { e with
      volumeInit := BitVec.ofNat 4 (bits d 7 4)
      envDirection := bit d 3
      volumePeriod := BitVec.ofNat 3 (bits d 2 0) } := by
  rw [Envelope.setFields, volumeInitField_eq, envDirectionField_eq, volumePeriodField_eq]

/-- Settles O25: each write's effect is a DAC write and the envelope's fields, in the spec's terms. -/
theorem writeEnvelopeSetsFieldsAndDac : Obligations.WriteEnvelopeSetsFieldsAndDac := by
  intro d s hs ha dac
  have hdac (c : Channel) :
      c.writeDac (envDacField d) = { c with dacEnabled := dac, enabled := dac && c.enabled } := by
    rw [Channel.writeDac_eq, envDacField_eq]
  refine ⟨?_, ?_, ?_, writeWord_toNat _ d, writeWord_toNat _ d, writeWord_toNat _ d⟩
  · rw [exec_accepted hs ha rfl]
    simp only [effect, blockEffect, Apu.mapCh1, Pulse.writeEnvelope, hdac, Envelope.setFields_eq]
    rfl
  · rw [exec_accepted hs ha rfl]
    simp only [effect, blockEffect, Apu.mapCh2, Pulse.writeEnvelope, hdac, Envelope.setFields_eq]
    rfl
  · rw [exec_accepted hs ha rfl]
    simp only [effect, blockEffect, Apu.mapCh4, Noise.writeEnvelope, hdac, Envelope.setFields_eq]
    rfl

/-- Settles O26: each write's effect is the low frequency bits of its channel. -/
theorem writeFrequencyLowKeepsTheHighBits : Obligations.WriteFrequencyLowKeepsTheHighBits := by
  intro d s hs ha low
  refine ⟨?_, ?_, ?_, writeWord_toNat _ d, writeWord_toNat _ d, writeWord_toNat _ d⟩
  · rw [exec_accepted hs ha rfl]
    simp only [low, ← frequencyLow_eq]
    rfl
  · rw [exec_accepted hs ha rfl]
    simp only [low, ← frequencyLow_eq]
    rfl
  · rw [exec_accepted hs ha rfl]
    simp only [low, ← frequencyLow_eq]
    rfl

/-- Settles O27: the control write with and without bit 7; the trigger's reload and envelope in the spec's terms. -/
theorem writeNr14AndNr24TriggerThePulse : Obligations.WriteNr14AndNr24TriggerThePulse := by
  intro d s hs ha freq after
  have hafter (c : Pulse) : c.writeFrequencyHigh s.params d = after c := by
    cases hbit : bit d 7 with
    | false =>
      rw [Pulse.writeFrequencyHigh_noTrigger hbit, frequencyHigh_eq]
      simp [after, freq, hbit]
    | true =>
      rw [Pulse.writeFrequencyHigh_trigger hbit, frequencyHigh_eq, Pulse.trigger, Envelope.trigger_eq, pulseReload]
      simp [after, freq, hbit, Channel.trigger]
  refine ⟨?_, ?_, writeWord_toNat _ d, writeWord_toNat _ d⟩
  · rw [exec_accepted hs ha rfl, ← hafter]
    rfl
  · rw [exec_accepted hs ha rfl, ← hafter]
    rfl

/-! ## The wave channel (41_wave) -/

/-- Settles O30: the control write with and without bit 7; the trigger's reload in the spec's terms. -/
theorem writeNr34TriggersTheWave : Obligations.WriteNr34TriggersTheWave := by
  intro d s hs ha c freq after
  have hafter : c.writeFrequencyHigh d = after := by
    cases hbit : bit d 7 with
    | false =>
      rw [Wave.writeFrequencyHigh_noTrigger hbit, frequencyHigh_eq]
      simp [after, freq, hbit]
    | true =>
      rw [Wave.writeFrequencyHigh_trigger hbit, frequencyHigh_eq, Wave.trigger, waveReload]
      simp [after, freq, hbit, Channel.trigger]
  refine ⟨?_, writeWord_toNat _ d⟩
  rw [exec_accepted hs ha rfl, ← hafter]
  rfl

/-- A WRITE of the wave RAM completes in every running state: the power gate does not cover it. -/
theorem exec_writeWave {s : State} (hs : s.Running) (i : BitVec 4) (d : Byte) :
    exec (.writeWave i d) s = .next (effect (.writeWave i d) s) := by
  refine exec_uncovered hs rfl rfl ?_
  rw [waveAddress_toNat]
  omega

/-- Settles O31: the store's laws, and the sample of a byte as its nibble. -/
theorem writeWaveStoresOneByte : Obligations.WriteWaveStoresOneByte := by
  intro i d s hs hwf
  have hself := Memory.read_write_self s.apu.ch3.waveRam (waveAddr i) d hwf
  refine ⟨⟨Memory.write s.apu.ch3.waveRam (waveAddr i) d, exec_writeWave hs i d, hself,
    fun a ha => Memory.read_write_other _ d ha, Memory.wf_write _ d hwf, fun n hn => ?_⟩, ?_⟩
  · rw [sample_toNat, hn]
    exact hself.symm ▸ rfl
  · rw [encode, writeWord_toNat, waveAddress_toNat]
    omega

/-! ## The noise channel (42_noise) -/

/-- Settles O33: the write's effect in the spec's fields. -/
theorem writeNr43SetsThePolynomial : Obligations.WriteNr43SetsThePolynomial := by
  intro d s hs ha
  refine ⟨?_, writeWord_toNat _ d⟩
  rw [exec_accepted hs ha rfl, ← clockShiftField_eq, ← widthModeField_eq, ← divisorCodeField_eq]
  rfl

/-! ## The mixer and the addresses without a register (44_mixer_control) -/

/-- Settles O49: each write's effect in the spec's fields. -/
theorem writeNr50AndNr51SetTheMixer : Obligations.WriteNr50AndNr51SetTheMixer := by
  intro d s hs ha
  refine ⟨?_, ?_, writeWord_toNat _ d, writeWord_toNat _ d⟩
  · rw [exec_accepted hs ha rfl, ← vinLeftField_eq, ← leftVolumeField_eq, ← vinRightField_eq, ← rightVolumeField_eq]
    rfl
  · have hleft := routeLeftField_eq d
    have hright := routeRightField_eq d
    rw [exec_accepted hs ha rfl, ← hleft, ← hright]
    rfl

/-- A WRITE NR52 that no policy refuses completes with its effect. -/
theorem exec_writeNr52 {s : State} {d : Byte} (hs : s.Running) (h : s.params.powerOff = .storeOnly ∨ bit d 7 = true) :
    exec (.writeNr52 d) s = .next (effect (.writeNr52 d) s) := by
  refine exec_next_iff.2 ⟨hs, if_neg ?_, rfl⟩
  rintro ⟨hpolicy, hoff⟩
  rw [powerField_eq] at hoff
  rcases h with h | h
  · exact absurd (hpolicy.symm.trans h) (by decide)
  · exact absurd (hoff.symm.trans h) (by decide)

/-- Settles O50: the two causes the policy decides between. -/
theorem writeNr52StoresThePowerBit : Obligations.WriteNr52StoresThePowerBit := by
  intro d s hs
  refine ⟨fun h => ?_, fun hpolicy hoff => ?_, writeWord_toNat _ d⟩
  · rw [exec_writeNr52 hs h, ← powerField_eq]
    rfl
  · rw [exec_eq_outcome _ hs, stopOf, if_pos ⟨hpolicy, (powerField_eq d).trans hoff⟩]
    rfl

/-- Settles O51: the effect of a WRITE without a register is the state itself. -/
theorem unusedWritesChangeNothing : Obligations.UnusedWritesChangeNothing := by
  intro d j s hs
  refine ⟨fun ha => ⟨exec_accepted hs ha rfl, exec_accepted hs ha rfl⟩, exec_uncovered hs rfl rfl (by decide), ?_,
    writeWord_toNat _ d, writeWord_toNat _ d, writeWord_toNat _ d, ?_⟩
  · refine exec_uncovered hs rfl rfl ?_
    rw [unusedAddress_toNat]
    omega
  · rw [encode, writeWord_toNat, unusedAddress_toNat]
    omega

/-! ## A byte as the fields of a register -/

/-- A bit of a byte as a field of one bit. -/
theorem ofBool_getLsbD_eq (d : Byte) (i : Nat) : BitVec.ofBool (d.getLsbD i) = d.extractLsb' i 1 := by
  ext j hj
  obtain rfl : j = 0 := by omega
  simp

/-- Two fields side by side are one field. -/
theorem extract_append {d : Byte} {hi lo m n : Nat} (h : hi = lo + n) :
    d.extractLsb' hi m ++ d.extractLsb' lo n = d.extractLsb' lo (m + n) :=
  BitVec.extractLsb'_append_extractLsb'_eq_extractLsb' h

/-- A byte as its fields of 4, 1 and 3 bits: the layout of NR12 and NR43. -/
theorem byte_eq_4_1_3 (d : Byte) : d.extractLsb' 4 4 ++ BitVec.ofBool (d.getLsbD 3) ++ d.extractLsb' 0 3 = d := by
  rw [ofBool_getLsbD_eq]
  calc d.extractLsb' 4 4 ++ d.extractLsb' 3 1 ++ d.extractLsb' 0 3
    _ = d.extractLsb' 3 5 ++ d.extractLsb' 0 3 := congrArg (· ++ d.extractLsb' 0 3) (extract_append rfl)
    _ = d := (extract_append rfl).trans BitVec.extractLsb'_eq_self

/-- A byte as its fields of 1, 3, 1 and 3 bits: the layout of NR10 and NR50. -/
theorem byte_eq_1_3_1_3 (d : Byte) :
    BitVec.ofBool (d.getLsbD 7) ++ d.extractLsb' 4 3 ++ BitVec.ofBool (d.getLsbD 3) ++ d.extractLsb' 0 3 = d := by
  rw [ofBool_getLsbD_eq d 7]
  exact (congrArg (· ++ BitVec.ofBool (d.getLsbD 3) ++ d.extractLsb' 0 3) (extract_append rfl)).trans (byte_eq_4_1_3 d)

/-- A byte as its two fields of 2 and 6 bits: the layout of NR11. -/
theorem byte_eq_2_6 (d : Byte) : d.extractLsb' 6 2 ++ d.extractLsb' 0 6 = d :=
  (extract_append rfl).trans BitVec.extractLsb'_eq_self

/-- A byte as its fields of 1, 1 and 6 bits: the layout of NR14. -/
theorem byte_eq_1_1_6 (d : Byte) : d.extractLsb' 7 1 ++ BitVec.ofBool (d.getLsbD 6) ++ d.extractLsb' 0 6 = d := by
  rw [ofBool_getLsbD_eq]
  exact (congrArg (· ++ d.extractLsb' 0 6) (extract_append rfl)).trans (byte_eq_2_6 d)

/-- A byte as its fields of 1, 2 and 5 bits: the layout of NR32. -/
theorem byte_eq_1_2_5 (d : Byte) : d.extractLsb' 7 1 ++ d.extractLsb' 5 2 ++ d.extractLsb' 0 5 = d :=
  (congrArg (· ++ d.extractLsb' 0 5) (extract_append rfl)).trans
    ((extract_append rfl).trans BitVec.extractLsb'_eq_self)

/-- Under a mask of ones every field reads the same. -/
theorem or_ones {n : Nat} (x y : BitVec n) : x ||| BitVec.allOnes n = y ||| BitVec.allOnes n := by
  rw [BitVec.or_allOnes, BitVec.or_allOnes]

/-- The mask of NR10 hides bit 7. -/
theorem or_0x80_eq (x y b : BitVec 1) (a c : BitVec 3) : x ++ a ++ b ++ c ||| 0x80#8 = y ++ a ++ b ++ c ||| 0x80#8 := by
  change x ++ a ++ b ++ c ||| BitVec.allOnes 1 ++ 0#3 ++ 0#1 ++ 0#3
    = y ++ a ++ b ++ c ||| BitVec.allOnes 1 ++ 0#3 ++ 0#1 ++ 0#3
  simp only [BitVec.or_append, or_ones x y]

/-- The mask of NR11 hides bits 5 to 0. -/
theorem or_0x3F_eq (a : BitVec 2) (x y : BitVec 6) : a ++ x ||| 0x3F#8 = a ++ y ||| 0x3F#8 := by
  change a ++ x ||| 0#2 ++ BitVec.allOnes 6 = a ++ y ||| 0#2 ++ BitVec.allOnes 6
  simp only [BitVec.or_append, or_ones x y]

/-- The mask of NR14 hides all but bit 6. -/
theorem or_0xBF_eq (x y b : BitVec 1) (u v : BitVec 6) : x ++ b ++ u ||| 0xBF#8 = y ++ b ++ v ||| 0xBF#8 := by
  change x ++ b ++ u ||| BitVec.allOnes 1 ++ 0#1 ++ BitVec.allOnes 6
    = y ++ b ++ v ||| BitVec.allOnes 1 ++ 0#1 ++ BitVec.allOnes 6
  simp only [BitVec.or_append, or_ones x y, or_ones u v]

/-- The mask of NR32 hides all but bits 6 and 5. -/
theorem or_0x9F_eq (x y : BitVec 1) (a : BitVec 2) (u v : BitVec 5) :
    x ++ a ++ u ||| 0x9F#8 = y ++ a ++ v ||| 0x9F#8 := by
  change x ++ a ++ u ||| BitVec.allOnes 1 ++ 0#2 ++ BitVec.allOnes 5
    = y ++ a ++ v ||| BitVec.allOnes 1 ++ 0#2 ++ BitVec.allOnes 5
  simp only [BitVec.or_append, or_ones x y, or_ones u v]

/-! ## The natural value of a register just written, under its default mask -/

theorem naturalSweep_written (d : Byte) (w : Sweep) : naturalSweep (w.write d) ||| 0x80#8 = d ||| 0x80#8 := by
  conv_rhs => rw [← byte_eq_1_3_1_3 d]
  exact or_0x80_eq _ _ _ _ _

theorem naturalDuty_written (d : Byte) (c : Pulse) : naturalDuty (c.writeDutyLength d) ||| 0x3F#8 = d ||| 0x3F#8 := by
  conv_rhs => rw [← byte_eq_2_6 d]
  exact or_0x3F_eq _ _ _

theorem naturalEnvelope_written (d : Byte) (e : Envelope) : naturalEnvelope (e.setFields d) ||| 0x00#8 = d :=
  BitVec.or_zero.trans (byte_eq_4_1_3 d)

theorem naturalPolynomial_written (d : Byte) (c : Noise) : naturalPolynomial (c.writePolynomial d) ||| 0x00#8 = d :=
  BitVec.or_zero.trans (byte_eq_4_1_3 d)

theorem naturalMasterVolume_written (d : Byte) (m : Mixer) : naturalMasterVolume (m.writeVolume d) ||| 0x00#8 = d :=
  BitVec.or_zero.trans (byte_eq_1_3_1_3 d)

theorem naturalWaveVolume_written (d : Byte) (c : Wave) :
    naturalWaveVolume { c with volumeCode := volumeCodeField d } ||| 0x9F#8 = d ||| 0x9F#8 := by
  conv_rhs => rw [← byte_eq_1_2_5 d]
  exact or_0x9F_eq _ _ _ _ _

/-- A control write sets the length enable from bit 6, triggering or not. -/
theorem Channel.writeControl_lengthEnabled (lenMax reload : Nat) (d : Byte) (c : Channel) :
    (c.writeControl lenMax reload d).lengthEnabled = d.getLsbD 6 := by
  rw [Channel.writeControl, getLsbD_eq_bit]
  split <;> rfl

theorem naturalControl_written {d : Byte} {c : Channel} (h : c.lengthEnabled = d.getLsbD 6) :
    naturalControl c ||| 0xBF#8 = d ||| 0xBF#8 := by
  rw [naturalControl, h]
  conv_rhs => rw [← byte_eq_1_1_6 d]
  exact or_0xBF_eq _ _ _ _ _

/-- Four bits of a byte side by side are a field. -/
theorem ofBool_append_4 (d : Byte) (i : Nat) :
    BitVec.ofBool (d.getLsbD (i + 3)) ++ BitVec.ofBool (d.getLsbD (i + 2)) ++ BitVec.ofBool (d.getLsbD (i + 1))
      ++ BitVec.ofBool (d.getLsbD i) = d.extractLsb' i 4 := by
  simp only [ofBool_getLsbD_eq]
  have two := congrArg (· ++ d.extractLsb' (i + 1) 1 ++ d.extractLsb' i 1)
    (extract_append (d := d) (hi := i + 3) (lo := i + 2) (m := 1) (n := 1) rfl)
  have three := congrArg (· ++ d.extractLsb' i 1)
    (extract_append (d := d) (hi := i + 2) (lo := i + 1) (m := 2) (n := 1) rfl)
  exact two.trans (three.trans (extract_append rfl))

theorem naturalRouting_written (d : Byte) (m : Mixer) : naturalRouting (m.writeRouting d) ||| 0x00#8 = d := by
  have hleft : routingBits (routeLeftField d) = d.extractLsb' 4 4 := ofBool_append_4 d 4
  have hright : routingBits (routeRightField d) = d.extractLsb' 0 4 := ofBool_append_4 d 0
  rw [BitVec.or_zero, naturalRouting, Mixer.writeRouting, hleft, hright]
  exact (extract_append rfl).trans BitVec.extractLsb'_eq_self

/-! ## READ after WRITE (20_memory R75) -/

/-- After a WRITE that completed with its effect a READ hands over its natural value under the default mask. -/
theorem writeThenRead_of {w r : Instr} {s : State} {a : Addr} {n m b : Byte}
    (hp : s.params.readMask = Params.default.readMask) (hm : readMaskAt Params.default a = m)
    (hw : exec w s = .next (effect w s)) (hr : readReply (effect w s) r = some (n ||| readMaskAt s.params a))
    (hb : n ||| m = b) : WriteThenRead w r s b := by
  obtain ⟨-, -, hrun⟩ := exec_next hw
  exact ⟨_, hw, answers_of_defaultMask hrun hp hr hm hb⟩

/-- Settles O56: the reply after each write's effect is its natural value under the default mask of its address. -/
theorem readAfterWriteReturnsTheFields : Obligations.ReadAfterWriteReturnsTheFields := by
  intro d s hs ha hp
  have pulseControl (c : Pulse) : (c.writeFrequencyHigh s.params d).lengthEnabled = d.getLsbD 6 :=
    (congrArg Channel.lengthEnabled (Pulse.writeFrequencyHigh_channel ..)).trans
      (Channel.writeControl_lengthEnabled ..)
  have waveControl (c : Wave) : (c.writeFrequencyHigh d).lengthEnabled = d.getLsbD 6 :=
    (congrArg Channel.lengthEnabled (Wave.writeFrequencyHigh_channel ..)).trans
      (Channel.writeControl_lengthEnabled ..)
  have noiseControl (c : Noise) : (c.writeControl s.params d).lengthEnabled = d.getLsbD 6 :=
    (congrArg Channel.lengthEnabled (Noise.writeControl_channel ..)).trans
      (Channel.writeControl_lengthEnabled ..)
  refine ⟨⟨?_, ?_, ?_, ?_, ?_⟩, ⟨?_, ?_, ?_, ?_⟩, ⟨?_, ?_, ?_, ?_⟩, ⟨?_, ?_, ?_, ?_⟩, ⟨?_, ?_⟩, ?_, fun hpower => ?_,
    ⟨?_, ?_, ?_, fun j => ?_⟩, fun hwf i => ?_⟩
  -- channel 1
  · exact writeThenRead_of hp (by decide) (exec_accepted hs ha rfl) rfl (naturalSweep_written d _)
  · exact writeThenRead_of hp (by decide) (exec_accepted hs ha rfl) rfl (naturalDuty_written d _)
  · exact writeThenRead_of hp (by decide) (exec_accepted hs ha rfl) rfl (naturalEnvelope_written d _)
  · exact writeThenRead_of hp (by decide) (exec_accepted hs ha rfl) rfl BitVec.zero_or
  · exact writeThenRead_of hp (by decide) (exec_accepted hs ha rfl) rfl (naturalControl_written (pulseControl _))
  -- channel 2
  · exact writeThenRead_of hp (by decide) (exec_accepted hs ha rfl) rfl (naturalDuty_written d _)
  · exact writeThenRead_of hp (by decide) (exec_accepted hs ha rfl) rfl (naturalEnvelope_written d _)
  · exact writeThenRead_of hp (by decide) (exec_accepted hs ha rfl) rfl BitVec.zero_or
  · exact writeThenRead_of hp (by decide) (exec_accepted hs ha rfl) rfl (naturalControl_written (pulseControl _))
  -- channel 3
  · exact writeThenRead_of hp (by decide) (exec_accepted hs ha rfl) rfl BitVec.zero_or
  · exact writeThenRead_of hp (by decide) (exec_accepted hs ha rfl) rfl (naturalWaveVolume_written d _)
  · exact writeThenRead_of hp (by decide) (exec_accepted hs ha rfl) rfl BitVec.zero_or
  · exact writeThenRead_of hp (by decide) (exec_accepted hs ha rfl) rfl (naturalControl_written (waveControl _))
  -- channel 4
  · exact writeThenRead_of hp (by decide) (exec_accepted hs ha rfl) rfl BitVec.zero_or
  · exact writeThenRead_of hp (by decide) (exec_accepted hs ha rfl) rfl (naturalEnvelope_written d _)
  · exact writeThenRead_of hp (by decide) (exec_accepted hs ha rfl) rfl (naturalPolynomial_written d _)
  · exact writeThenRead_of hp (by decide) (exec_accepted hs ha rfl) rfl (naturalControl_written (noiseControl _))
  -- the mixer
  · exact writeThenRead_of hp (by decide) (exec_accepted hs ha rfl) rfl (naturalMasterVolume_written d _)
  · exact writeThenRead_of hp (by decide) (exec_accepted hs ha rfl) rfl (naturalRouting_written d _)
  -- NR30 and NR52, which read the flags
  · refine writeThenRead_of hp (by decide) (exec_accepted hs ha rfl) rfl ((naturalWavePower_or_mask _).trans ?_)
    simp only [effect, blockEffect, Apu.mapCh3, Channel.writeDac_eq, waveDacField_eq]
  · refine writeThenRead_of hp (by decide) (exec_writeNr52 hs hpower) rfl ((naturalStatus_or_mask _).trans ?_)
    simp only [effect, blockEffect, Apu.setPower, powerField_eq]
  -- the unused addresses and the wave RAM
  · exact writeThenRead_of hp (by decide) (exec_accepted hs ha rfl) rfl BitVec.zero_or
  · exact writeThenRead_of hp (by decide) (exec_accepted hs ha rfl) rfl BitVec.zero_or
  · exact writeThenRead_of hp (by decide) (exec_accepted hs ha rfl) rfl BitVec.zero_or
  · exact writeThenRead_of hp (readMaskAt_default_unused j) (exec_accepted hs ha rfl) rfl BitVec.zero_or
  · refine writeThenRead_of hp (readMaskAt_default_wave i) (exec_writeWave hs i d) rfl (BitVec.or_zero.trans ?_)
    exact Memory.read_write_self _ _ d hwf

end Sys2Proof.Machine

/-! The state at reset (70_reset_and_hazards): its values, its READs and its first STEP; and the bounds of a SAMPLE
(44_mixer_control R260). -/

namespace Sys2Proof.Machine

/-! ## The wave RAM at reset (10_state R27) -/

/-- The canonical memory that holds the bytes of a list from address `k` on. -/
def ramFrom (k : Nat) (l : List Byte) : Memory :=
  (l.zipIdx k).filterMap fun (b, a) => if b = Config.unlistedByte then none else some (a, b)

theorem initialWaveRam_eq (init : List Byte) : initialWaveRam init = ramFrom 0xFF30 init := rfl

theorem ramFrom_cons (k : Nat) (b : Byte) (l : List Byte) :
    ramFrom k (b :: l) = Memory.cons k b (ramFrom (k + 1) l) := by
  rw [ramFrom, List.zipIdx_cons, List.filterMap_cons, Memory.cons]
  by_cases hb : b = Config.unlistedByte
  · simp only [if_pos hb]
    rfl
  · simp only [if_neg hb]
    rfl

theorem ramFrom_above {a k : Nat} (l : List Byte) (h : a < k) : Memory.above a (ramFrom k l) = true := by
  induction l generalizing k with
  | nil => rfl
  | cons b l ih =>
    rw [ramFrom_cons]
    exact Memory.above_cons b (ih (by omega)) h

/-- Byte `i` of the list reads at address `k + i`. -/
theorem read_ramFrom {l : List Byte} {i : Nat} (k : Nat) (h : i < l.length) :
    Memory.read (ramFrom k l) (k + i) = l[i] := by
  induction l generalizing k i with
  | nil => exact absurd h (Nat.not_lt_zero i)
  | cons b l ih =>
    rw [ramFrom_cons]
    cases i with
    | zero => exact Memory.read_cons_self k b _ (ramFrom_above l (Nat.lt_succ_self k))
    | succ i =>
      have hi : i < l.length := Nat.lt_of_succ_lt_succ h
      rw [Memory.read_cons_other b _ (by omega), List.getElem_cons_succ, ← ih (k + 1) hi]
      congr 1
      omega

/-- The wave RAM at reset holds the parameter's bytes. -/
theorem read_resetWaveRam (p : Params) (i : Fin 16) :
    Memory.read (State.resetWith p).apu.ch3.waveRam (0xFF30 + i.val) = p.waveRamInit[i] := by
  have hi : i.val < p.waveRamInit.toList.length := p.waveRamInit.length_toList.symm ▸ i.isLt
  exact (read_ramFrom 0xFF30 hi).trans (Vector.getElem_toList _)

/-! ## The values at reset (R301) -/

/-- Settles O9: every value but the wave RAM's is evaluated. -/
theorem resetHoldsTheSpecValues : Obligations.ResetHoldsTheSpecValues := by
  refine ⟨rfl, ⟨rfl, rfl, rfl, rfl, by decide, ⟨rfl, rfl, rfl, rfl⟩, by decide⟩, fun p => ?_⟩
  refine ⟨?_, ?_, ?_, ⟨rfl, rfl, rfl, rfl⟩, ⟨rfl, rfl, rfl, rfl⟩, read_resetWaveRam p, ⟨rfl, rfl, rfl, rfl⟩, ⟨rfl, rfl⟩,
    ⟨rfl, rfl, rfl, rfl⟩, ⟨rfl, rfl⟩, ⟨rfl, rfl, rfl⟩⟩
  · simp only [List.forall_mem_cons]
    exact ⟨⟨rfl, rfl, rfl, rfl, rfl⟩, ⟨rfl, rfl, rfl, rfl, rfl⟩, ⟨rfl, rfl, rfl, rfl, rfl⟩,
      ⟨rfl, rfl, rfl, rfl, rfl⟩, nofun⟩
  · simp only [List.forall_mem_cons]
    exact ⟨⟨rfl, rfl, rfl, rfl, rfl, rfl⟩, ⟨rfl, rfl, rfl, rfl, rfl, rfl⟩, ⟨rfl, rfl, rfl, rfl, rfl, rfl⟩, nofun⟩
  · simp only [List.forall_mem_cons]
    exact ⟨⟨rfl, rfl, rfl⟩, ⟨rfl, rfl, rfl⟩, nofun⟩

/-! ## SAMPLE without and within bounds (44_mixer R257, R258, R260) -/

/-- A side that no channel is routed to sums to 0, whatever the channels do. -/
theorem sideSum_unrouted (p : Params) (a : Apu) : a.sideSum p ⟨false, false, false, false⟩ = 0 := by
  simp [Apu.sideSum, routed]

/-- The master scale of 0 is 0. -/
theorem masterScale_zero (code : BitVec 3) : masterScale 0 code = 0 := by
  rw [masterScale_eq, zero_mul]

/-- The DAC maps 0..15 into [-1, 1], and a stopped channel gives 0 (R255). -/
theorem channelOut_bounds (enabled : Bool) {v : Nat} (h : v ≤ 15) :
    -1 ≤ channelOut enabled v ∧ channelOut enabled v ≤ 1 := by
  have hv : (v : Rat) ≤ 15 := by exact_mod_cast h
  have hv0 : (0 : Rat) ≤ v := by positivity
  rw [channelOut_eq]
  cases enabled
  · norm_num
  · simp only [if_true]
    constructor <;> linarith

/-- A channel adds to a side at most 1 either way (R257). -/
theorem routed_bounds (flag : Bool) {x : Rat} (h : -1 ≤ x ∧ x ≤ 1) : -1 ≤ routed flag x ∧ routed flag x ≤ 1 := by
  cases flag
  · norm_num [routed]
  · exact h

/-- A pulse's digital value is at most its volume. -/
theorem Pulse.digital_le (p : Params) {c : Pulse} (h : c.volume ≤ 15) : c.digital p ≤ 15 := by
  rw [Pulse.digital_eq]
  split
  · exact h
  · exact Nat.zero_le _

/-- The wave's digital value is at most its sample. -/
theorem Wave.digital_le (p : Params) (c : Wave) : c.digital p ≤ 15 := by
  have := c.sampleBuffer.isLt
  rw [Wave.digital_eq]
  exact (Nat.div_le_self _ _).trans (by omega)

/-- The noise's digital value is at most its volume. -/
theorem Noise.digital_le {c : Noise} (h : c.volume ≤ 15) : c.digital ≤ 15 := by
  rw [Noise.digital_eq]
  split
  · exact Nat.zero_le _
  · exact h

/-- A side sum lies within four, one for each channel. -/
theorem sideSum_bounds (p : Params) {a : Apu} (h : a.VolumesInRange) (r : Routing) :
    -4 ≤ a.sideSum p r ∧ a.sideSum p r ≤ 4 := by
  obtain ⟨h1, h2, h4⟩ := h
  have b1 := routed_bounds r.ch1 (channelOut_bounds a.ch1.enabled (Pulse.digital_le p h1))
  have b2 := routed_bounds r.ch2 (channelOut_bounds a.ch2.enabled (Pulse.digital_le p h2))
  have b3 := routed_bounds r.ch3 (channelOut_bounds a.ch3.enabled (Wave.digital_le p a.ch3))
  have b4 := routed_bounds r.ch4 (channelOut_bounds a.ch4.enabled (Noise.digital_le h4))
  rw [Apu.sideSum]
  constructor <;> linarith

/-- The master scale is a factor of at most 1. -/
theorem masterScale_bounds {x : Rat} (code : BitVec 3) (h : -4 ≤ x ∧ x ≤ 4) :
    -4 ≤ masterScale x code ∧ masterScale x code ≤ 4 := by
  have hcode : (code.toNat : Rat) ≤ 7 := by exact_mod_cast Nat.le_of_lt_succ code.isLt
  have hcode0 : (0 : Rat) ≤ code.toNat := by positivity
  rw [masterScale_eq]
  constructor <;> nlinarith

/-- Four enabled channels at digital 0, routed to a side at full volume, give -4. -/
theorem masterScale_sideSum_low {p : Params} {a : Apu}
    (he : a.ch1.enabled = true ∧ a.ch2.enabled = true ∧ a.ch3.enabled = true ∧ a.ch4.enabled = true)
    (hd : a.ch1.digital p = 0 ∧ a.ch2.digital p = 0 ∧ a.ch3.digital p = 0 ∧ a.ch4.digital = 0) :
    masterScale (a.sideSum p ⟨true, true, true, true⟩) 7#3 = -4 := by
  obtain ⟨he1, he2, he3, he4⟩ := he
  obtain ⟨hd1, hd2, hd3, hd4⟩ := hd
  have hone : channelOut true 0 = -1 := by norm_num [channelOut_eq]
  simp only [Apu.sideSum, routed, he1, he2, he3, he4, hd1, hd2, hd3, hd4, hone, if_true, masterScale_eq]
  norm_num

/-- Settles O54: the side sums' bounds under the master scale, and the sum that reaches -4. -/
theorem sampleStaysWithinFour : Obligations.SampleStaysWithinFour := by
  constructor
  · intro s t hinv h
    obtain ⟨⟨⟨-, hv1⟩, ⟨-, hv2⟩, -, ⟨-, hv4⟩, -⟩, -⟩ := hinv
    have hvolumes : s.apu.VolumesInRange := ⟨hv1.1, hv2.1, hv4.1⟩
    obtain ⟨hs, -⟩ := exec_next h
    cases (exec_sample hs).symm.trans h
    refine ⟨_, _, rfl, masterScale_bounds _ (sideSum_bounds _ hvolumes _),
      masterScale_bounds _ (sideSum_bounds _ hvolumes _), fun hroute => ?_, fun hroute => ?_⟩
    · rw [Apu.outLeft, hroute, sideSum_unrouted, masterScale_zero]
    · rw [Apu.outRight, hroute, sideSum_unrouted, masterScale_zero]
  · intro s hs he1 he2 he3 he4 hd1 hd2 hd3 hd4 hleft hright hvl hvr
    have hlow := masterScale_sideSum_low ⟨he1, he2, he3, he4⟩ ⟨hd1, hd2, hd3, hd4⟩
    rw [exec_sample hs, Apu.outLeft, Apu.outRight, hleft, hright, hvl, hvr, hlow]
    rfl

/-! ## READs and SAMPLE at reset (R302) -/

/-- A READ hands over its reply. -/
theorem answers_of_reply {i : Instr} {s : State} {b : Byte} (hs : s.Running) (h : readReply s i = some b) :
    Answers i s b :=
  ⟨_, exec_read hs h, rfl⟩

/-- Settles O10: the replies are evaluated at the reset state; no channel is routed to a side. -/
theorem readsAtResetMatchTheTable : Obligations.ReadsAtResetMatchTheTable := by
  have hs : State.reset.Running := ⟨rfl, rfl⟩
  refine ⟨fun r hr => answers_of_reply hs ?_, fun j => answers_of_reply hs ?_, fun i => answers_of_reply hs ?_, ?_⟩
  · revert r hr
    decide
  · revert j
    decide
  · revert i
    decide
  · have hleft : State.reset.apu.outLeft State.reset.params = 0 :=
      (congrArg (masterScale · 0#3) (sideSum_unrouted _ _)).trans (masterScale_zero _)
    have hright : State.reset.apu.outRight State.reset.params = 0 :=
      (congrArg (masterScale · 0#3) (sideSum_unrouted _ _)).trans (masterScale_zero _)
    rw [exec_sample hs, hleft, hright]
    rfl

/-! ## The first STEP (R303) -/

/-- 0 is a fixed point of both LFSR steps (42_noise R210). -/
theorem lfsrStep_zero (narrow : Bool) : lfsrStep 0#15 narrow = 0#15 := by
  revert narrow
  decide

/-- The first STEP moves both duty phases to 1 and loads both pulse timers with (2048 - 0) * 4. -/
theorem firstStep_pulses {p : Params} {t : State} (h : exec .step (State.resetWith p) = .next t) :
    t.apu.ch1.dutyIdx = 1#3 ∧ t.apu.ch2.dutyIdx = 1#3 ∧ t.apu.ch1.period = 8192 ∧ t.apu.ch2.period = 8192 := by
  obtain ⟨⟨hperiod1, hidx1⟩, hperiod2, hidx2⟩ := stepClocksThePulseTimers.1 _ t h
  have hreload {f : BitVec 11} (hf : f = 0#11) : (2048 - f.toNat) * 4 = 8192 := by rw [hf]; decide
  exact ⟨BitVec.eq_of_toNat_eq hidx1, BitVec.eq_of_toNat_eq hidx2,
    (hperiod1.trans (if_pos (Nat.zero_le 1))).trans (hreload rfl),
    (hperiod2.trans (if_pos (Nat.zero_le 1))).trans (hreload rfl)⟩

/-- The first STEP moves channel 3's pointer to 1, fetches that sample and loads the timer with (2048 - 0) * 2. -/
theorem firstStep_wave {p : Params} {t : State} (h : exec .step (State.resetWith p) = .next t) :
    t.apu.ch3.sampleNibble = 1#5 ∧ t.apu.ch3.sampleBuffer.toNat = (p.waveRamInit[0]).toNat % 16
      ∧ t.apu.ch3.period = 4096 := by
  obtain ⟨hperiod, hnibble, hbuffer⟩ := (stepClocksTheWaveTimer.1 _ t h).2 (Nat.zero_le 1)
  have hindex : ((State.resetWith p).apu.ch3.sampleNibble.toNat + 1) % 32 = 1 := rfl
  have hbyte : (State.resetWith p).apu.ch3.waveRam.read (0xFF30 + 1 / 2) = p.waveRamInit[0] := read_resetWaveRam p 0
  rw [hindex, if_neg (by decide), hbyte] at hbuffer
  exact ⟨BitVec.eq_of_toNat_eq hnibble, hbuffer, hperiod⟩

/-- The first STEP leaves the LFSR at 0 and loads channel 4's timer with the divisor of code 0. -/
theorem firstStep_noise {p : Params} {t : State} (hp : p.noiseDivisorTable = Params.default.noiseDivisorTable)
    (h : exec .step (State.resetWith p) = .next t) : t.apu.ch4.lfsr = 0#15 ∧ t.apu.ch4.period = 8 := by
  obtain ⟨hperiod, hlfsr⟩ := (stepClocksTheNoiseTimer _ t h).2 (Nat.zero_le 1)
  refine ⟨hlfsr.trans (lfsrStep_zero false), ?_⟩
  rw [hperiod]
  simp only [State.resetWith, hp]
  rfl

/-- Settles O11: reset holds every timer at 0, so each of the four expires. -/
theorem firstStepAfterReset : Obligations.FirstStepAfterReset := by
  intro p hp
  have hreset : AfterSteps 0 (State.resetWith p) := ⟨⟨rfl, rfl⟩, rfl, rfl, rfl⟩
  obtain ⟨t, h, -⟩ := hreset.next
  exact ⟨t, h, firstStep_pulses h, firstStep_wave h, firstStep_noise hp h⟩

end Sys2Proof.Machine

/-! The assembler (30_encoding R94, R95): a line's words, and the text of six lines and of every register label. -/

namespace Sys2Proof.Machine

/-! ## READ and WRITE lines -/

/-- The word of a READ line, as a number. -/
theorem assembleLine_read (a : Addr) : assembleLine (.read a) = some [BitVec.ofNat 32 (256 * a.toNat)] := by
  rw [assembleLine, ← readWord_toNat a, BitVec.ofNat_toNat, BitVec.setWidth_eq]

/-- An immediate up to 255 is a byte. -/
theorem immediate_of_le {n : Nat} (h : n ≤ 255) : immediate n = some (BitVec.ofNat 8 n) := if_pos h

/-- A byte's number is the immediate of that byte. -/
theorem immediate_toNat (b : Byte) : immediate b.toNat = some b := by
  rw [immediate_of_le (Nat.le_of_lt_succ b.isLt), BitVec.ofNat_toNat, BitVec.setWidth_eq]

/-- The word of a WRITE line of a byte. -/
theorem assembleLine_writeByte (a : Addr) (d : Byte) :
    assembleLine (.write a d.toNat) = some [mkWord 0b01#2 0#6 a d] := by
  rw [assembleLine, immediate_toNat, Option.map_some]

/-- The word of a WRITE line, as a number. -/
theorem assembleLine_write (a : Addr) {n : Nat} (h : n ≤ 255) :
    assembleLine (.write a n) = some [BitVec.ofNat 32 (0x40000000 + 256 * a.toNat + n)] := by
  have hn : (BitVec.ofNat 8 n).toNat = n := Nat.mod_eq_of_lt (Nat.lt_succ_of_le h)
  have hw := writeWord_toNat a (BitVec.ofNat 8 n)
  rw [hn] at hw
  rw [← hw, BitVec.ofNat_toNat, BitVec.setWidth_eq, ← assembleLine_writeByte, hn]

/-- An immediate above 255 is an error. -/
theorem assembleLine_write_large (a : Addr) {n : Nat} (h : 255 < n) : assembleLine (.write a n) = none := by
  rw [assembleLine, immediate, if_neg (Nat.not_le_of_lt h), Option.map_none]

/-- Every well-formed operation has a line that assembles to its word: a READ or WRITE is its address and its data. -/
theorem exists_line_of_wellFormed {i : Instr} (hw : i.WellFormed) : ∃ line, assembleLine line = some [encode i] := by
  cases ha : i.addr? with
  | none =>
    rcases step_or_sample_of_no_addr ha with rfl | rfl
    · exact ⟨.step 1, rfl⟩
    · exact ⟨.sample, rfl⟩
  | some a =>
    rw [row_of_addr hw ha]
    split
    · exact ⟨.read a, by rw [encode_readAt]; rfl⟩
    · exact ⟨.write a (dataField (encode i)).toNat, by rw [encode_writeAt, assembleLine_writeByte]⟩

/-! ## WRITEWAVE (R95) -/

/-- The numbers of bytes are the immediates of those bytes. -/
theorem immediates_map_toNat (bs : List Byte) : immediates (bs.map BitVec.toNat) = some bs := by
  induction bs with
  | nil => rfl
  | cons b bs ih => simp only [List.map_cons, immediates, immediate_toNat, ih]

theorem length_waveWords (k : Nat) (bs : List Byte) : (waveWords k bs).length = bs.length := by
  induction bs generalizing k with
  | nil => rfl
  | cons b bs ih => rw [waveWords, List.length_cons, List.length_cons, ih]

/-- Word `n` of the bytes from byte `k` on writes byte `n` to address 0xFF30 + k + n. -/
theorem getElem_waveWords {k n : Nat} {bs : List Byte} (h : n < (waveWords k bs).length) :
    (waveWords k bs)[n]
      = mkWord 0b01#2 0#6 (BitVec.ofNat 16 (0xFF30 + (k + n))) (bs[n]'(length_waveWords k bs ▸ h)) := by
  induction bs generalizing k n with
  | nil => exact absurd h (Nat.not_lt_zero n)
  | cons b bs ih =>
    cases n with
    | zero => rfl
    | succ n =>
      simp only [waveWords, List.getElem_cons_succ]
      rw [ih, Nat.add_right_comm k 1 n, Nat.add_assoc k n 1]

/-- The address of wave-RAM byte `n`. -/
theorem waveAddress_ofNat {n : Nat} (h : n < 16) : BitVec.ofNat 16 (0xFF30 + n) = 0xFF3#12 ++ BitVec.ofNat 4 n := by
  interval_cases n <;> rfl

/-- WRITEWAVE gives the sixteen wave-RAM WRITEs, in order. -/
theorem assembleLine_writeWave (b : Vector Byte 16) :
    assembleLine (.writeWave (b.toList.map BitVec.toNat))
      = some (List.ofFn fun i : Fin 16 => encode (.writeWave (BitVec.ofNat 4 i.val) b[i])) := by
  have hlength : b.toList.length = 16 := b.length_toList
  rw [assembleLine, if_pos ((List.length_map _).trans hlength), immediates_map_toNat, Option.map_some]
  refine congrArg some (List.ext_getElem ?_ fun n hn hn' => ?_)
  · rw [length_waveWords, hlength, List.length_ofFn]
  · rw [List.length_ofFn] at hn'
    rw [getElem_waveWords, List.getElem_ofFn, Nat.zero_add, waveAddress_ofNat hn', Vector.getElem_toList]
    rfl

/-! ## The statement -/

/-- Settles O5: the words of a line are equations of the assembler; the lines of text and the labels are evaluated. -/
theorem assemblerSpellsTheOperations : Obligations.AssemblerSpellsTheOperations :=
  ⟨assembleLine_read, fun a _ h => assembleLine_write a h, rfl, fun _ => exists_line_of_wellFormed, fun _ => rfl,
    fun a _ h => assembleLine_write_large a h, assembleLine_writeWave, by decide, by decide, by decide, by decide,
    by decide, by decide, by decide⟩

end Sys2Proof.Machine

/-! The periods of the two LFSR sequences (42_noise R210), without enumerating the wide one. The wide step is additive
over exclusive or and satisfies x^15 = x + 1; so its iterates satisfy the squared relations x^(16 * 2^k) = x^(2 * 2^k) +
x^(2^k), which give x^(2^15) = x: the period divides 32767 = 7 * 31 * 151. -/

namespace Sys2Proof.Machine

open Function

/-! ## Periods of a point -/

/-- A period that no prime of it can be taken from is the minimal one. -/
theorem minimalPeriod_eq_of_prime {α : Type} {f : α → α} {x : α} {n : Nat} (h : IsPeriodicPt f n x)
    (hprime : ∀ p, p.Prime → p ∣ n → ¬ IsPeriodicPt f (n / p) x) : minimalPeriod f x = n := by
  obtain ⟨k, hk⟩ := h.minimalPeriod_dvd
  by_cases hone : k = 1
  · rw [hk, hone, Nat.mul_one]
  · obtain ⟨p, hp, j, rfl⟩ := Nat.exists_prime_and_dvd hone
    have hmul : n = p * (minimalPeriod f x * j) := hk.trans (Nat.mul_left_comm _ _ _)
    have hdiv : n / p = minimalPeriod f x * j := Nat.div_eq_of_eq_mul_right hp.pos hmul
    exact absurd (hdiv ▸ (isPeriodicPt_minimalPeriod f x).mul_const j) (hprime p hp ⟨_, hmul⟩)

/-- A periodic point never reaches a fixed point other than itself. -/
theorem iterate_ne_of_isPeriodicPt {α : Type} {f : α → α} {x z : α} {n : Nat} (hn : 0 < n) (h : IsPeriodicPt f n x)
    (hz : IsFixedPt f z) (hne : x ≠ z) (m : Nat) : f^[m] x ≠ z := by
  intro hm
  have hle : m ≤ n * m := Nat.le_mul_of_pos_left m hn
  refine hne ?_
  calc
    x = f^[n * m - m + m] x := by rw [Nat.sub_add_cancel hle]; exact (h.mul_const m).symm
    _ = z := by rw [iterate_add_apply, hm]; exact hz.iterate _

/-! ## The wide step on bits -/

/-- The wide step. -/
def wideStep (l : BitVec 15) : BitVec 15 := lfsrStep l false

/-- The wide step moves bit `i + 1` to bit `i`, and the sum of bits 0 and 1 into bit 14. -/
theorem getLsbD_wideStep (l : BitVec 15) (i : Nat) :
    (wideStep l).getLsbD i = (l.getLsbD (i + 1) ^^ (decide (i = 14) && (l.getLsbD 0 ^^ l.getLsbD 1))) := by
  have hlow : (lfsrFeedback l).getLsbD 0 = (l.getLsbD 0 ^^ l.getLsbD 1) := by simp [lfsrFeedback]
  rw [wideStep, lfsrStep_wide, BitVec.getLsbD_or, BitVec.getLsbD_ushiftRight, BitVec.getLsbD_shiftLeft,
    Nat.add_comm 1 i]
  rcases lt_trichotomy i 14 with h | rfl | h
  · simp [h, h.ne]
  · rw [← hlow]
    simp
  · simp [h.not_gt, h.ne', Nat.not_lt_of_ge (Nat.succ_le_of_lt h)]

/-- Below bit 14 the wide step is a shift. -/
theorem getLsbD_wideStep_of_lt (l : BitVec 15) {i : Nat} (h : i < 14) :
    (wideStep l).getLsbD i = l.getLsbD (i + 1) := by
  simp [getLsbD_wideStep, h.ne]

/-- Bit `i` after `n` wide steps is bit `i + n`, where the register has one. -/
theorem getLsbD_wideStep_iterate (n : Nat) (l : BitVec 15) {i : Nat} (h : i + n < 15) :
    (wideStep^[n] l).getLsbD i = l.getLsbD (i + n) := by
  induction n generalizing l with
  | zero => rfl
  | succ n ih =>
    rw [iterate_succ_apply, ih _ (by omega), getLsbD_wideStep_of_lt l (by omega), Nat.add_assoc]

/-- The wide step is additive over exclusive or. -/
theorem wideStep_xor (u v : BitVec 15) : wideStep (u ^^^ v) = wideStep u ^^^ wideStep v := by
  refine BitVec.eq_of_getLsbD_eq fun i _ => ?_
  simp only [getLsbD_wideStep, BitVec.getLsbD_xor, Bool.and_xor_distrib_left, Bool.xor_assoc, Bool.xor_left_comm]

/-- So are its iterates. -/
theorem wideStep_iterate_xor (n : Nat) (u v : BitVec 15) :
    wideStep^[n] (u ^^^ v) = wideStep^[n] u ^^^ wideStep^[n] v := by
  induction n generalizing u v with
  | zero => rfl
  | succ n ih => simp only [iterate_succ_apply, wideStep_xor, ih]

/-! ## The wide step's relation and its squares -/

/-- x^15 = x + 1: fifteen steps fill the register with the fifteen sums of neighbouring bits. -/
theorem wideStep_iterate_15 (l : BitVec 15) : wideStep^[15] l = wideStep l ^^^ l := by
  refine BitVec.eq_of_getLsbD_eq fun i hi => ?_
  have hindex : 15 = (14 - i) + (i + 1) := by omega
  have hsplit : wideStep^[15] l = wideStep^[14 - i] (wideStep (wideStep^[i] l)) :=
    calc
      wideStep^[15] l = wideStep^[(14 - i) + (i + 1)] l := congrArg (fun n => wideStep^[n] l) hindex
      _ = wideStep^[14 - i] (wideStep (wideStep^[i] l)) := by rw [iterate_add_apply, iterate_succ_apply' wideStep]
  have hzero : (wideStep^[i] l).getLsbD 0 = l.getLsbD i := by
    rw [getLsbD_wideStep_iterate i l (by omega), Nat.zero_add]
  have hone : (wideStep^[i] l).getLsbD 1 = (wideStep l).getLsbD i := by
    rw [← getLsbD_wideStep_of_lt _ (by decide), ← iterate_succ_apply' wideStep, iterate_succ_apply,
      getLsbD_wideStep_iterate i _ (by omega), Nat.zero_add]
  rw [hsplit, getLsbD_wideStep_iterate _ _ (by omega), Nat.add_sub_cancel' (by omega), getLsbD_wideStep, hzero, hone,
    BitVec.getLsbD_xor, BitVec.getLsbD_of_ge _ _ (by decide), decide_eq_true rfl, Bool.true_and,
    Bool.false_xor, Bool.xor_comm]

/-- A term that two sums share cancels from their sum. -/
theorem xor_xor_cancel {w : Nat} (a b c : BitVec w) : a ^^^ b ^^^ (b ^^^ c) = a ^^^ c := by
  rw [BitVec.xor_assoc, ← BitVec.xor_assoc b, BitVec.xor_self, BitVec.zero_xor]

/-- Squaring a relation between iterates: the mixed terms cancel. -/
theorem wideStep_iterate_double {n a b : Nat} (h : ∀ l, wideStep^[n] l = wideStep^[a] l ^^^ wideStep^[b] l)
    (l : BitVec 15) : wideStep^[2 * n] l = wideStep^[2 * a] l ^^^ wideStep^[2 * b] l := by
  have hmixed : wideStep^[a] (wideStep^[b] l) = wideStep^[b] (wideStep^[a] l) := by
    rw [← iterate_add_apply, ← iterate_add_apply, Nat.add_comm]
  calc
    wideStep^[2 * n] l = wideStep^[n] (wideStep^[n] l) := by rw [Nat.two_mul, iterate_add_apply]
    _ = (wideStep^[a] (wideStep^[a] l) ^^^ wideStep^[b] (wideStep^[a] l))
        ^^^ (wideStep^[b] (wideStep^[a] l) ^^^ wideStep^[b] (wideStep^[b] l)) := by
      rw [h l, wideStep_iterate_xor, h, h, hmixed]
    _ = wideStep^[2 * a] l ^^^ wideStep^[2 * b] l := by
      rw [xor_xor_cancel, Nat.two_mul, Nat.two_mul, iterate_add_apply, iterate_add_apply]

/-- The relation x^16 = x^2 + x, squared `k` times. -/
theorem wideStep_iterate_two_pow (k : Nat) (l : BitVec 15) :
    wideStep^[2 ^ (k + 4)] l = wideStep^[2 ^ (k + 1)] l ^^^ wideStep^[2 ^ k] l := by
  induction k generalizing l with
  | zero => exact wideStep_iterate_15 (wideStep l)
  | succ k ih =>
    have hsquare := wideStep_iterate_double ih l
    rwa [← Nat.pow_succ', ← Nat.pow_succ', ← Nat.pow_succ'] at hsquare

/-- The relation x^16 = x^2 + x, applied to its own terms. -/
theorem wideStep_iterate_two_pow_8 (k : Nat) (l : BitVec 15) :
    wideStep^[2 ^ (k + 8)] l = wideStep^[2 ^ (k + 2)] l ^^^ wideStep^[2 ^ k] l := by
  rw [wideStep_iterate_two_pow (k + 4), wideStep_iterate_two_pow (k + 1), wideStep_iterate_two_pow k, xor_xor_cancel]

/-- x^(2^15) = x. -/
theorem wideStep_iterate_two_pow_15 (l : BitVec 15) : wideStep^[2 ^ 15] l = wideStep l := by
  rw [wideStep_iterate_two_pow 11, wideStep_iterate_two_pow 8, wideStep_iterate_two_pow 7, xor_xor_cancel,
    wideStep_iterate_two_pow_8 1, wideStep_iterate_two_pow 3, wideStep_iterate_two_pow 0,
    BitVec.xor_comm (_ ^^^ _) (_ ^^^ _), xor_xor_cancel, BitVec.xor_comm _ (wideStep^[2 ^ 0] l), BitVec.xor_assoc,
    BitVec.xor_self, BitVec.xor_zero]
  rfl

/-- The wide step is injective: x^15 + x = 1. -/
theorem wideStep_injective : Injective wideStep := by
  intro u v h
  have h15 : wideStep^[15] u = wideStep^[15] v := by rw [iterate_succ_apply, h, ← iterate_succ_apply]
  rw [wideStep_iterate_15, wideStep_iterate_15, h] at h15
  exact (BitVec.xor_right_inj _).1 h15

/-- x^32767 = 1. -/
theorem isPeriodicPt_wideStep (l : BitVec 15) : IsPeriodicPt wideStep 32767 l :=
  wideStep_injective ((iterate_succ_apply' wideStep 32767 l).symm.trans (wideStep_iterate_two_pow_15 l))

/-! ## The wide sequence from 0x7FFF -/

/-- 4681 = 2^12 + 2^9 + 2^6 + 2^3 + 1 steps do not return. -/
theorem not_isPeriodicPt_wideStep_4681 : ¬ IsPeriodicPt wideStep 4681 0x7FFF#15 := by
  have hsum : wideStep^[4681] 0x7FFF#15
      = wideStep^[2 ^ 12] (wideStep^[2 ^ 9] (wideStep^[2 ^ 6] (wideStep^[2 ^ 3] (wideStep 0x7FFF#15)))) := by
    simp only [← iterate_add_apply, ← iterate_succ_apply]
    rfl
  rw [IsPeriodicPt, IsFixedPt, hsum, wideStep_iterate_two_pow 8, wideStep_iterate_two_pow 2, wideStep_iterate_two_pow 5]
  decide +kernel

/-- 1057 = 2^10 + 2^5 + 1 steps do not return. -/
theorem not_isPeriodicPt_wideStep_1057 : ¬ IsPeriodicPt wideStep 1057 0x7FFF#15 := by
  have hsum : wideStep^[1057] 0x7FFF#15 = wideStep^[2 ^ 10] (wideStep^[2 ^ 5] (wideStep 0x7FFF#15)) := by
    simp only [← iterate_add_apply, ← iterate_succ_apply]
    rfl
  rw [IsPeriodicPt, IsFixedPt, hsum, wideStep_iterate_two_pow_8 2, wideStep_iterate_two_pow 1]
  decide +kernel

/-- 217 steps do not return. -/
theorem not_isPeriodicPt_wideStep_217 : ¬ IsPeriodicPt wideStep 217 0x7FFF#15 := by
  unfold IsPeriodicPt IsFixedPt
  decide +kernel

/-- The primes of 32767. -/
theorem prime_dvd_32767 {p : Nat} (hp : p.Prime) (h : p ∣ 32767) : p = 7 ∨ p = 31 ∨ p = 151 := by
  have hfactors : 32767 = 7 * 31 * 151 := by norm_num
  rw [hfactors, hp.dvd_mul, hp.dvd_mul, Nat.prime_dvd_prime_iff_eq hp (by norm_num),
    Nat.prime_dvd_prime_iff_eq hp (by norm_num), Nat.prime_dvd_prime_iff_eq hp (by norm_num), or_assoc] at h
  exact h

/-- The wide sequence from 0x7FFF has the exact period 32767. -/
theorem minimalPeriod_wideStep : minimalPeriod wideStep 0x7FFF#15 = 32767 := by
  refine minimalPeriod_eq_of_prime (isPeriodicPt_wideStep _) fun p hp h => ?_
  rcases prime_dvd_32767 hp h with rfl | rfl | rfl
  · exact not_isPeriodicPt_wideStep_4681
  · exact not_isPeriodicPt_wideStep_1057
  · exact not_isPeriodicPt_wideStep_217

/-- 0 is a fixed point of the wide step. -/
theorem isFixedPt_wideStep_zero : IsFixedPt wideStep 0#15 := lfsrStep_zero false

/-- The wide sequence never reaches 0. -/
theorem wideStep_iterate_ne_zero (n : Nat) : wideStep^[n] 0x7FFF#15 ≠ 0#15 :=
  iterate_ne_of_isPeriodicPt (by decide) (isPeriodicPt_wideStep _) isFixedPt_wideStep_zero (by decide) n

/-- The wide sequence visits every nonzero value: its 32767 values are distinct and there are 32767 nonzero ones. -/
theorem exists_wideStep_iterate {v : BitVec 15} (hv : v ≠ 0#15) : ∃ n, wideStep^[n] 0x7FFF#15 = v := by
  have hmaps : Set.MapsTo (fun n => (wideStep^[n] 0x7FFF#15).toNat) (Finset.range 32767 : Finset Nat)
      (Finset.Ioo 0 32768 : Finset Nat) := fun n _ =>
    Finset.mem_coe.2 (Finset.mem_Ioo.2 ⟨Nat.pos_of_ne_zero fun h => wideStep_iterate_ne_zero n
      (BitVec.eq_of_toNat_eq h), BitVec.isLt _⟩)
  have hinj : Set.InjOn (fun n => (wideStep^[n] 0x7FFF#15).toNat) (Finset.range 32767 : Finset Nat) := by
    intro m hm n hn h
    refine iterate_injOn_Iio_minimalPeriod ?_ ?_ (BitVec.eq_of_toNat_eq h)
    · rw [minimalPeriod_wideStep]
      exact Finset.mem_range.1 hm
    · rw [minimalPeriod_wideStep]
      exact Finset.mem_range.1 hn
  have hcard : (Finset.Ioo 0 32768 : Finset Nat).card ≤ (Finset.range 32767).card := by
    rw [Nat.card_Ioo, Finset.card_range]
  have hmem : v.toNat ∈ (Finset.Ioo 0 32768 : Finset Nat) :=
    Finset.mem_Ioo.2 ⟨Nat.pos_of_ne_zero fun h => hv (BitVec.eq_of_toNat_eq h), v.isLt⟩
  obtain ⟨n, -, hn⟩ := Finset.surjOn_of_injOn_of_card_le _ hmaps hinj hcard hmem
  exact ⟨n, BitVec.eq_of_toNat_eq hn⟩

/-! ## The narrow sequence from 0x7FFF -/

/-- The narrow step. -/
def narrowStep (l : BitVec 15) : BitVec 15 := lfsrStep l true

/-- 0x3FBF returns after 127 steps. -/
theorem isPeriodicPt_narrowStep : IsPeriodicPt narrowStep 127 0x3FBF#15 := by
  unfold IsPeriodicPt IsFixedPt
  decide +kernel

/-- 127 is a prime, so the cycle of 0x3FBF has the exact period 127. -/
theorem minimalPeriod_narrowStep : minimalPeriod narrowStep 0x3FBF#15 = 127 := by
  refine minimalPeriod_eq_of_prime isPeriodicPt_narrowStep fun p hp h => ?_
  cases (Nat.prime_dvd_prime_iff_eq hp (by norm_num)).1 h
  unfold IsPeriodicPt IsFixedPt
  decide

/-- 0x7FFF enters that cycle after one step. -/
theorem narrowStep_iterate_succ (n : Nat) : narrowStep^[n + 1] 0x7FFF#15 = narrowStep^[n] 0x3FBF#15 := rfl

/-- The narrow sequence never reaches 0. -/
theorem narrowStep_iterate_ne_zero (n : Nat) : narrowStep^[n] 0x7FFF#15 ≠ 0#15 := by
  cases n with
  | zero => decide
  | succ n => exact iterate_ne_of_isPeriodicPt (by decide) isPeriodicPt_narrowStep (lfsrStep_zero true) (by decide) n

/-- The narrow sequence never returns to 0x7FFF: the cycle's only value before 0x3FBF is another one. -/
theorem narrowStep_iterate_ne {n : Nat} (hn : 0 < n) : narrowStep^[n] 0x7FFF#15 ≠ 0x7FFF#15 := by
  obtain ⟨m, rfl⟩ := Nat.exists_eq_succ_of_ne_zero hn.ne'
  intro h
  have hperiod : narrowStep^[127] 0x7FFF#15 = 0x7FFF#15 := by
    have hcycle : IsPeriodicPt narrowStep 127 (narrowStep^[m] 0x3FBF#15) := isPeriodicPt_narrowStep.apply_iterate m
    rwa [← narrowStep_iterate_succ, h] at hcycle
  exact absurd hperiod (by decide +kernel)

/-! ## The statement (R210) -/

/-- Settles O37: the exact periods of 0x7FFF and 0x3FBF, and the count of the nonzero values. -/
theorem lfsrSequencesHaveTheirPeriods : Obligations.LfsrSequencesHaveTheirPeriods := by
  refine ⟨⟨isPeriodicPt_wideStep _, fun n hpos hlt => ?_⟩, fun v hv => exists_wideStep_iterate hv,
    ⟨rfl, isPeriodicPt_narrowStep, fun n hpos hlt => ?_⟩, fun n hn => narrowStep_iterate_ne hn, lfsrStep_zero,
    fun n => ⟨wideStep_iterate_ne_zero n, narrowStep_iterate_ne_zero n⟩, fun _ => rfl⟩
  · exact not_isPeriodicPt_of_pos_of_lt_minimalPeriod hpos.ne' (hlt.trans_eq minimalPeriod_wideStep.symm)
  · exact not_isPeriodicPt_of_pos_of_lt_minimalPeriod hpos.ne' (hlt.trans_eq minimalPeriod_narrowStep.symm)

end Sys2Proof.Machine
